-- ==== Sys2Proof/Word.lean ====
section
/-! DEFINITION. The byte, the one word type of the block: frames on the lines and on the drop links are
lists of bytes (spec 04, 11). -/

namespace Sys2Proof

/-- One byte of a frame. -/
abbrev Byte := BitVec 8

end Sys2Proof
end

