-- ==== Sys2Proof/Syntax.lean ====
section
/-! DEFINITION. The commands of the block: one constructor for each row of spec/opcode_table.json.
A row that stands for a command of a drop link names the port whose handed command its owner takes;
the arguments are those of that command (09 R175). A row that stands for an event names where it happens
and carries what the event brings from outside (a code measured, the bytes of a frame, a pin level). -/

namespace Sys2Proof

/-- The input an interpolator serves: FI0 to FI7, MI0 to MI3, RI (03 R56). -/
inductive Input where
  | line (l : Fin 8)
  | marker (m : Fin 4)
  | ref
deriving DecidableEq, Repr

/-- The direction of an edge on a marker input (07 R133). -/
inductive Direction where
  | rising
  | falling
deriving DecidableEq, Repr

/-- How a frame ends while its line keeps block lock: at its end code, or early at another control
code (04 R78). -/
inductive FrameEnding where
  | endCode
  | otherControl
deriving DecidableEq, Repr

/-- The two makers of records (08 R148). -/
inductive RecordSource where
  | engine
  | markers
deriving DecidableEq, Repr

/-- The rows of the table, in its order. -/
inductive Instr where
  | attach (p : Fin 3)
  | detach (p : Fin 3)
  | hold (p : Fin 3)
  | release (p : Fin 3)
  | grantCredits (p : Fin 3)
  | setQuota (p : Fin 3)
  | setPacing (p : Fin 3)
  | subscribe (p : Fin 3)
  | unsubscribe (p : Fin 3)
  | subscribeUnmapped (p : Fin 3)
  | subscribeMarkers (p : Fin 3)
  | queryTime (p : Fin 3)
  | readStatus (p : Fin 3)
  | readChannel (p : Fin 3)
  | swapMarkers (p : Fin 3)
  | readMarkerLog (p : Fin 3)
  | resetPort (p : Fin 3)
  | resetPortEnginePart (p : Fin 3)
  | resetPortMarkerPart (p : Fin 3)
  | resetPortPoolPart (p : Fin 3)
  | writeChannel (p : Fin 3)
  | removeChannel (p : Fin 3)
  | setPairMode (p : Fin 3)
  | writeLineSettings (p : Fin 3)
  | writeMarkerSettings (p : Fin 3)
  | writeDisciplineSettings (p : Fin 3)
  | labelNextPulse (p : Fin 3)
  | trimRate (p : Fin 3)
  | clearInvalid (p : Fin 3)
  | rollover
  | secpFall
  | edgeCapture (i : Input)
  | conversionEnd (i : Input) (code : Fin 32)
  | coarseEdgeHandover (i : Input)
  | internalEdge (i : Input)
  | sampleEnd (i : Input) (code : Fin 32)
  | calibrationTimerExpiry
  | noPulse
  | missedWindow
  | blockLockGained (l : Fin 8)
  /-- `bytes`: what the open frame, if any, has received. -/
  | blockLockLost (l : Fin 8) (bytes : List Byte)
  /-- `bytes`: what a frame still open, which this start code ends early, has received. -/
  | frameStart (l : Fin 8) (bytes : List Byte)
  | frameEnd (l : Fin 8) (bytes : List Byte) (how : FrameEnding)
  | byteCountLimit (l : Fin 8) (bytes : List Byte)
  | quietTimerExpiry (l : Fin 8)
  | arrivalTake (l : Fin 8)
  | gapDeadlineExpiry (index : Fin 512)
  | markerRawEdge (m : Fin 4) (d : Direction)
  | markerQualification (m : Fin 4)
  | recordOffer (src : RecordSource)
  | heartbeatTimerExpiry (p : Fin 3)
  | linkUp (p : Fin 3)
  | linkLoss (p : Fin 3)
  | commandFrameReceived (p : Fin 3) (bytes : List Byte)
  | commandHandover (p : Fin 3)
  | linkFrameStart (p : Fin 3)
  | linkFrameEnd (p : Fin 3)
  | holdTimerExpiry (p : Fin 3)
  | silenceTimerExpiry (p : Fin 3)
  | powerOn
  | startupDelayEnd
  /-- `straps`: the levels of CFGEN0 to CFGEN2, bit n for port n. -/
  | coreRelease (straps : BitVec 3)
  | clockStop
  | supplyDip
  | supplyRecovery
  | dipRecoveryEnd
  | rstnAssertion
  /-- `straps`: the levels of CFGEN0 to CFGEN2, bit n for port n. -/
  | rstnRelease (straps : BitVec 3)
  | coreTick
  | clockDropout
  | clockGoodCountComplete
deriving DecidableEq, Repr

end Sys2Proof
end

