-- ==== Sys2Proof/Config.lean ====
section
/-! DEFINITION. What the spec fixes once for every run, and the one free value. -/

namespace Sys2Proof.Config

/-- The code an interpolator measures where the model ends a conversion or a sample that no
CONVERSION_END or SAMPLE_END of the queue has ended. Nothing is known of it (log entry 9). -/
opaque freeCode : Nat → Fin 32

/-- The greatest value of the seconds (01 R1). -/
def maxSec : Nat := 2 ^ 40 - 1

/-- Nanoseconds in a second. -/
def nsPerSec : Nat := 1000000000

/-- Units of 2^-32 ns in a second (01 R1). -/
def unitsPerSec : Nat := 1000000000 * 2 ^ 32

/-- The increment with no correction (01 R2). -/
def nominalInc : Nat := 10737418240

/-- The limit of counters that saturate (00 "Saturation"). -/
def counterMax : Nat := 4294967295

/-- Core ticks in one nominal millisecond (04 R76, 08 R162, 09 R168). -/
def ticksPerMs : Nat := 400000

/-- The number of pool entries (08 R145). -/
def poolSize : Nat := 16384

/-- The quota at power-on and after a Reset Port (08 R153, R164). -/
def startQuota : Nat := 4096

/-- RC cycles of the start-up delay (10 R184). -/
def startupCycles : Nat := 65536

/-- RC cycles of the wait after a dip (10 R186). -/
def dipCycles : Nat := 4096

/-- The clock-good count when complete (10 R183). -/
def goodCycles : Nat := 4096

/-- The no-tick run that stops the core (10 R185). -/
def stopCycles : Nat := 32

/-- The samples of a complete collection (03 R65). -/
def tableSum : Nat := 65536

/-- The fine offset of an edge that has no table (03 R63). -/
def coarseOffset : Nat := 320

/-- The greatest number of coarse edges waiting at an interpolator, and of edges waiting at a marker input: two for
each of seven ticks (03 R57, 07 R133). -/
def edgeListSize : Nat := 14

/-- Ticks from the capture of an edge to its hand-over (03 R59, R60). -/
def handoverTicks : Nat := 7

end Sys2Proof.Config
end

