-- ==== Sys2Proof/Machine/State.lean ====
section
/-! DEFINITION. The state of the block as plain data: everything the spec's state tables name
(01 R1, 02 R25, 03 R57, 04 R73, 05 R93, 06 R108, 07 R133, 08 R145, R146, 09 R165, 10 R183), the queue of
commands that wait, and the few fields of the model's own that INVENTORY.md lists. -/

namespace Sys2Proof.Machine

/-! ## Time -/

/-- The discipline state, which is the quality class of every reading (01 R7, 02 R25). -/
inductive Quality where
  | unset
  | freerun
  | settling
  | locked
  | holdover
deriving DecidableEq, Repr

/-- The timescale counter (01 R1): value, epoch and increment. `excess` is the model's own: the units by which the
addition of the present tick passed the greatest value, 0 at any other tick (01 R3, log entry 5). -/
structure Timescale where
  sec : Nat
  ns : Nat
  frac : Nat
  epoch : BitVec 8
  inc : Nat
  excess : Nat
deriving DecidableEq, Repr

/-- The last fall of SECP: its tick, and the width that the value must be taken back below at that tick for SECP to be
high after all, which is the least in force since (01 R19, R20; log entry 18). The model's own. -/
structure SecpFall where
  tick : Nat
  width : Nat
deriving DecidableEq, Repr

/-- Where the present tick stands with its rollover (01 R5, R14): it makes none; its effects wait to be taken; they
have been taken; or they were taken at a tick that a change of the increment then made a tick before the rollover
(log entry 5). The model's own. -/
inductive Rollover where
  | none
  | waiting
  | taken
  | early
deriving DecidableEq, Repr

/-- A reading of the timescale with the conditions in force at its tick (01 R6, R7). -/
structure Reading where
  sec : Nat
  ns : Nat
  sub : Nat
  epoch : BitVec 8
  quality : Quality
  invalid : Bool
  suspect : Bool
deriving DecidableEq, Repr

/-- The date of an edge (01 R8), or a reading of the timescale that an item or a record carries. `readAt` is the
model's own: the tick whose reading it is, absent in a stamp formed from an edge (01 R7, R15; log entry 6). -/
structure Stamp where
  sec : Nat
  ns : Nat
  sub : Nat
  epoch : BitVec 8
  quality : Quality
  invalid : Bool
  suspect : Bool
  coarse : Bool
  clamped : Bool
  readAt : Option Nat
deriving DecidableEq, Repr

/-- A time value with the epoch it was formed in: a deadline (01 R10), or an instant (02 R28). -/
structure Deadline where
  sec : Nat
  ns : Nat
  sub : Nat
  epoch : BitVec 8
deriving DecidableEq, Repr

/-! ## Discipline controller -/

/-- What LOCKO reports (01 R21). -/
inductive LockoSource where
  | locked
  | lockedOrHoldover
  | invalid
  | lineNotLive
deriving DecidableEq, Repr

/-- Which level of LOCKO is active (01 R21). -/
inductive Polarity where
  | activeHigh
  | activeLow
deriving DecidableEq, Repr

/-- The discipline settings record (02 R50). The fields of type `Fin 4` hold the code of the value. -/
structure DisciplineSettings where
  slewLimit : Nat
  a : Nat
  b : Nat
  window : Fin 4
  lockThreshold : Fin 4
  lockCount : Nat
  reacquireCount : Nat
  stepThreshold : Fin 4
  holdoverLimit : Fin 4
  calInterval : Fin 4
  secpWidth : Fin 4
  lockoSource : LockoSource
  polarity : Polarity
deriving DecidableEq, Repr

/-- A window around an expected second: its two bounds, each with its epoch (02 R37). -/
structure RefWindow where
  openAt : Deadline
  closeAt : Deadline
deriving DecidableEq, Repr

/-- The expected second with its epoch (02 R25). -/
structure ExpectedSecond where
  sec : Nat
  epoch : BitVec 8
deriving DecidableEq, Repr

/-- A label that waits, with the rollovers it has seen (02 R25, R46). -/
structure PendingLabel where
  value : Nat
  rollovers : Nat
deriving DecidableEq, Repr

/-- The discipline controller (02 R25). `qualityAt` is the model's own: the tick of the last QUALITY
notice and the class before that tick (02 R52, log entry 7). -/
structure Discipline where
  state : Quality
  rate : Int
  slew : Int
  suspect : Bool
  good : Nat
  faults : Nat
  reacquired : Nat
  age : Nat
  instant : Option Deadline
  expected : Option ExpectedSecond
  window : Option RefWindow
  silence : Option Deadline
  label : Option PendingLabel
  settings : DisciplineSettings
  qualityAt : Option (Nat × Quality)
deriving DecidableEq, Repr

/-! ## Interpolators -/

/-- A calibration table: 32 bin counts (03 R61). -/
abbrev CalTable := Vector Nat 32

/-- An edge captured by an interpolator. `edge` says which edge of its input it is (log entry 10). -/
structure Capture where
  edge : Nat
  tick : Nat
  reading : Reading
deriving DecidableEq, Repr

/-- A conversion in flight with its latched table, present or absent (03 R58). -/
structure Conversion where
  cap : Capture
  table : Option CalTable
deriving DecidableEq, Repr

/-- A collection in progress (03 R65). -/
structure Collection where
  bins : CalTable
  samples : Nat
deriving DecidableEq, Repr

/-- What a converter is doing (03 R57). -/
inductive ConverterState where
  | idle
  | converting
  | sampling
deriving DecidableEq, Repr

/-- One interpolator (03 R57). Its converter state is computed from `conv` and `sample`. The model's own:
`presented`, the edges presented and not yet captured; `captured`, how many were captured at the present
tick; `lastEnd`, the end tick of the last conversion. -/
structure Interp where
  presented : List Nat
  captured : Nat
  conv : Option Conversion
  sample : Option Nat
  lastEnd : Option Nat
  coarse : List Capture
  table : Option CalTable
  collection : Option Collection
  busy : Nat
  calibrations : Nat
deriving DecidableEq, Repr

/-! ## Feed lines -/

/-- The line settings record (04 R74). -/
structure LineSettings where
  enable : Bool
  comp : BitVec 16
  quietMs : Nat
deriving DecidableEq, Repr

/-- The condition of a line (04 R75). -/
inductive LineState where
  | disabled
  | dark
  | quiet
  | live
deriving DecidableEq, Repr

/-- The damage verdict of a frame (04 R79). -/
inductive Verdict where
  | none
  | truncated
  | oversize
  | runt
  | fcs
deriving DecidableEq, Repr

/-- Why a frame has no key (04 R86). -/
inductive UnkeyedCause where
  | notIpv4
  | taggedTwice
  | badHeader
  | fragment
  | notUdp
  | headerCut
deriving DecidableEq, Repr

/-- Destination address and destination port of a datagram (04 R85). -/
structure Key where
  addr : BitVec 32
  port : BitVec 16
deriving DecidableEq, Repr

/-- The outcome of parsing (04 R83 to R86). -/
inductive Parse where
  | unkeyed (cause : UnkeyedCause)
  | keyed (key : Key) (payloadLen : Nat) (fields : List Byte)
deriving DecidableEq, Repr

/-- How far the parse of a frame has come: still in its headers, or decided (04 R83 to R86). -/
inductive Progress where
  | header
  | unkeyed (cause : UnkeyedCause)
  | keyed (key : Key) (payloadLen : Nat)
deriving DecidableEq, Repr

/-- A frame in progress (04 R73). It is open while `ended` is absent, and ended with its damage verdict otherwise.
Its byte count, parse progress and field bytes are as at its start until the command that ends it brings its bytes
(log entry 11). `edge` and `captureTick` say which edge dates it and when that was captured. -/
structure Frame where
  edge : Nat
  captureTick : Nat
  comp : BitVec 16
  count : Nat
  progress : Progress
  fields : List Byte
  stamp : Option Stamp
  ended : Option Verdict
deriving DecidableEq, Repr

/-- One line receiver (04 R73). -/
structure Line where
  settings : LineSettings
  state : LineState
  lock : Bool
  quiet : Option Nat
  frames : List Frame
  frameCount : Nat
  damaged : Nat
  unmapped : Nat
  coarseCount : Nat
deriving DecidableEq, Repr

/-- A finished arrival as handed to the engine (04 R87). -/
structure Arrival where
  line : Fin 8
  stamp : Stamp
  length : Nat
  verdict : Verdict
  parse : Parse
deriving DecidableEq, Repr

/-! ## Channel table and windows -/

/-- The scope of a channel (05 R93). -/
inductive Scope where
  | pair (p : Fin 4)
  | line (l : Fin 8)
deriving DecidableEq, Repr

/-- The mode of a line pair (05 R99). -/
inductive PairMode where
  | paired
  | independent
deriving DecidableEq, Repr

/-- The order of the sequence and count bytes (04 R89). -/
inductive ByteOrder where
  | msbFirst
  | lsbFirst
deriving DecidableEq, Repr

/-- Sequence mode with exactly the fields that are present in it (05 R93). -/
inductive SeqFormat where
  | none
  | packet (offset : BitVec 8) (order : ByteOrder)
  | message (offset : BitVec 8) (order : ByteOrder) (countOffset : BitVec 8)
deriving DecidableEq, Repr

/-- A subscriber level (05 R100). -/
inductive Level where
  | none
  | leaders
  | all
deriving DecidableEq, Repr

/-- A slot of a pairing window (06 R108); the epoch of a stamp is in the stamp. -/
inductive Slot where
  | vacant
  | seen (line : Fin 8) (stamp : Stamp)
  | paired (line : Fin 8) (stamp : Stamp)
  | lost
  | recovered
deriving DecidableEq, Repr

/-- A pairing window (06 R108). `slots` has 64 places, slot 0 first. `armedAt` is the model's own: the tick at which
the deadline was armed (06 R122). -/
structure PairWindow where
  base : Option (BitVec 32)
  slots : List Slot
  highest : Option (BitVec 32)
  deadline : Option Deadline
  armedAt : Option Nat
  stale : Nat
deriving DecidableEq, Repr

/-- The ten channel counters, in the order of 05 R104. -/
structure ChannelCounters where
  leaderA : Nat
  leaderB : Nat
  followers : Nat
  repeats : Nat
  late : Nat
  stale : Nat
  gaps : Nat
  rebases : Nat
  damaged : Nat
  short : Nat
deriving DecidableEq, Repr

/-- An OCCUPIED entry of the channel table (05 R93). -/
structure Entry where
  scope : Scope
  addr : BitVec 32
  port : BitVec 16
  fmt : SeqFormat
  gapUs : Nat
  levels : Vector Level 3
  win : PairWindow
  cnt : ChannelCounters
deriving DecidableEq, Repr

/-! ## Records -/

/-- What the engine names an arrival (06 R114, 05 R94). -/
inductive Classification where
  | leader
  | follower
  | repeated
  | late
  | stale
  | unsequenced
  | damaged
  | short
deriving DecidableEq, Repr

/-- The cause of a GAP record (06 R127). -/
inductive GapCause where
  | overrun
  | timeout
  | rebase
deriving DecidableEq, Repr

/-- Why an arrival is unmapped (05 R95). -/
inductive UnmappedCause where
  | noChannel
  | unkeyed (c : UnkeyedCause)
deriving DecidableEq, Repr

/-- An arrival record (06 R130). `marks` is newly seen and recovered, present or absent together. -/
structure ArrivalRecord where
  index : Nat
  cls : Classification
  line : Fin 8
  stamp : Stamp
  length : Nat
  verdict : Verdict
  seq : Option (BitVec 32)
  count : Option Nat
  lag : Option Int
  marks : Option (Nat × Nat)
  overtook : Bool
  acrossEpoch : Bool
  rangeCut : Bool
  rebased : Bool
deriving DecidableEq, Repr

/-- A GAP record (06 R127). -/
structure GapRecord where
  index : Nat
  cause : GapCause
  first : BitVec 32
  count : Option Nat
  baseAfter : BitVec 32
  stamp : Stamp
deriving DecidableEq, Repr

/-- An UNMAPPED record (05 R95). -/
structure UnmappedRecord where
  line : Fin 8
  stamp : Stamp
  length : Nat
  verdict : Verdict
  key : Option Key
  cause : UnmappedCause
deriving DecidableEq, Repr

/-- A marker record (07 R140). -/
structure MarkerRecord where
  input : Fin 4
  dir : Direction
  stamp : Stamp
  count : BitVec 32
deriving DecidableEq, Repr

/-- A record of the pool (08 R145). -/
inductive Record where
  | arrival (r : ArrivalRecord)
  | gap (r : GapRecord)
  | unmapped (r : UnmappedRecord)
  | marker (r : MarkerRecord)
deriving DecidableEq, Repr

/-- A record handed to the pool with the set of ports admitted to it (08 R147). -/
structure Offer where
  record : Record
  ports : Vector Bool 3
deriving DecidableEq, Repr

/-! ## Markers -/

/-- Which edges of a marker input are reported (07 R134). -/
inductive EdgeSelect where
  | off
  | rising
  | falling
  | both
deriving DecidableEq, Repr

/-- The marker settings record; `width` holds the code of the filter width (07 R134). -/
structure MarkerSettings where
  select : EdgeSelect
  width : Fin 4
  comp : BitVec 16
deriving DecidableEq, Repr

/-- A raw edge waiting to prove itself (07 R133). -/
structure Candidate where
  dir : Direction
  captureTick : Nat
  qualTick : Nat
  selected : Bool
  comp : BitVec 16
  edge : Nat
  stamp : Option Stamp
deriving DecidableEq, Repr

/-- An edge accepted at filter width 0 that waits for its stamp (07 R133). -/
structure Waiting where
  dir : Direction
  comp : BitVec 16
  edge : Nat
  stamp : Option Stamp
deriving DecidableEq, Repr

/-- One marker input (07 R133). `level` is the sampled level of the pin; `rawSeen` is the model's own: the
raw edges taken at the present tick. -/
structure Marker where
  settings : MarkerSettings
  level : Bool
  rawSeen : Nat
  qualified : Bool
  candidate : Option Candidate
  waiting : List Waiting
  count : BitVec 32
  glitches : Nat
  log : List MarkerRecord
deriving DecidableEq, Repr

/-! ## Notices and items -/

/-- The kind of a timescale correction (02 R32). -/
inductive TimescaleKind where
  | step
  | labelAtPulse
  | labelAtFallback
deriving DecidableEq, Repr

/-- The kind of a REFERENCE notice (02 R53). -/
inductive ReferenceKind where
  | doublePulse
  | noPulse
  | outlier
  | outOfWindow
  | missedWindow
  | reacquired
deriving DecidableEq, Repr

/-- The cause of a release of the core (10 R183). -/
inductive ReleaseCause where
  | powerOn
  | supplyDip
  | clockStop
deriving DecidableEq, Repr

/-- A shared record named by a SETTINGS notice (08 R157). -/
inductive SettingsRecord where
  | discipline
  | line (l : Fin 8)
  | marker (m : Fin 4)
  | pairMode (p : Fin 4)
  | channel (index : Fin 512)
deriving DecidableEq, Repr

/-- The eight notices with the values each carries (08 R157). -/
inductive NoticeBody where
  | timescale (kind : TimescaleKind) (old new : BitVec 8) (amount : Int) (label : Option Nat) (after : Quality)
  | quality (before after : Quality) (suspect : Bool)
  | invalid (cause : Option ReleaseCause)
  | reference (kind : ReferenceKind) (state : Quality) (pulse : Option (Int × Stamp))
  | settings (record : SettingsRecord) (port : Fin 3)
  | line (l : Fin 8) (old new : LineState) (all : Vector LineState 8)
  | loss (count : Nat) (first last : Stamp) (total : Nat)
  | holdExpired (timeout queueLen : Nat)
deriving DecidableEq, Repr

/-- A pending notice (08 R157). -/
structure Notice where
  body : NoticeBody
  repeats : Nat
deriving DecidableEq, Repr

/-- The values of a heartbeat (08 R163). -/
structure Heartbeat where
  time : Stamp
  age : Nat
  queueLen : Nat
  quota : Nat
  lagging : Bool
  lossTotal : Nat
deriving DecidableEq, Repr

/-- An item of a link frame (11). Replies are held as the bytes laid out when they are formed (11 R192), but for the
reading in the reply to Query Time, which stands between the bytes before it and those after it. -/
inductive Item where
  | reply (bytes : List Byte)
  | timeReply (head : List Byte) (time : Stamp) (tail : List Byte)
  | replyMore (bytes : List Byte)
  | record (r : Record)
  | heartbeat (h : Heartbeat)
  | notice (n : Notice)
deriving DecidableEq, Repr

/-! ## Pool and ports -/

/-- A LIVE entry: its number, its record and its reference count (08 R145). -/
structure PoolEntry where
  id : Nat
  record : Record
  refs : Nat
deriving DecidableEq, Repr

/-- The record pool: its LIVE entries, and the records handed to it and not yet offered (08 R145, R148).
`next` is the model's own: the number of the next entry made LIVE. -/
structure Pool where
  entries : List PoolEntry
  next : Nat
  fromEngine : List Offer
  fromMarkers : List Offer
deriving DecidableEq, Repr

/-- The state of a drop port (09 R165). -/
inductive PortState where
  | down
  | detached
  | streaming
  | held
deriving DecidableEq, Repr

/-- Why a port last left service (09 R169). -/
inductive DetachCause where
  | none
  | command
  | silence
  | reset
  | link
deriving DecidableEq, Repr

/-- The pacing settings; heartbeat and silence hold their codes (09 R179). -/
structure Pacing where
  heartbeat : Fin 12
  holdMs : Nat
  silence : Fin 4
deriving DecidableEq, Repr

/-- Where a command stands (09 R175). -/
inductive CommandCondition where
  | waiting
  | handed
  | taken
  | answered
deriving DecidableEq, Repr

/-- The parts of a Reset Port that have been taken after the port's own (09 R181). -/
structure ResetParts where
  engine : Bool
  marker : Bool
  pool : Bool
deriving DecidableEq, Repr

/-- A command of a port's queue: its frame without the CRC, where it stands, and the items of its reply
not yet sent (09 R175). -/
structure QueuedCommand where
  bytes : List Byte
  cond : CommandCondition
  parts : Option ResetParts
  reply : List Item
deriving DecidableEq, Repr

/-- A frame in transmission: its items and its bytes (09 R172, 11 R190). -/
structure Transmission where
  items : List Item
  frame : List Byte
deriving DecidableEq, Repr

/-- The seven port counters (09 R165). -/
structure PortCounters where
  received : Nat
  bad : Nat
  dropped : Nat
  refusals : Nat
  framesSent : Nat
  itemsSent : Nat
  linkLosses : Nat
deriving DecidableEq, Repr

/-- One drop port (08 R146, 09 R165). The queue holds numbers of LIVE entries, oldest first. `tx` is absent
while the transmitter is IDLE. `orphans` are commands handed to another block when the port went DOWN
(09 R166); `linkLost` is a loss of the link while the core was frozen (10 R185). -/
structure Port where
  state : PortState
  permit : Bool
  credits : Nat
  pacing : Pacing
  holdTimer : Option Nat
  silenceTimer : Option Nat
  cmds : List QueuedCommand
  tx : Option Transmission
  cause : DetachCause
  counters : PortCounters
  queue : List Nat
  quota : Nat
  lagging : Bool
  lossTotal : Nat
  notices : List Notice
  attention : BitVec 9
  hbTimer : Option Nat
  hbPending : Bool
  orphans : List QueuedCommand
  linkLost : Bool
deriving DecidableEq, Repr

/-! ## Clock monitor -/

/-- The monitor state (10 R183). -/
inductive Phase where
  | startup
  | dip
  | dipRecovery
  | clockQualify
  | run
  | stopped
deriving DecidableEq, Repr

/-- The clock monitor (10 R183). The RSTN latch is empty while `latched` is false. `supplyLow` is the core
supply below its threshold before the first release, and `vio` the supply VIO present (10 R184). -/
structure Monitor where
  phase : Phase
  rc : Nat
  good : Nat
  noTick : Nat
  cause : ReleaseCause
  invalid : Bool
  latched : Bool
  latchReleased : Bool
  supplyLow : Bool
  vio : Bool
deriving DecidableEq, Repr

/-! ## The block -/

/-- The whole block. `interps` is indexed FI0 to FI7, MI0 to MI3, RI. The model's own: `pending`, `tick`, `edgeSeq`,
`free`, `rolled`, and of SECP the tick of its last rise and its last fall. -/
structure State where
  pending : List Instr
  tick : Nat
  edgeSeq : Nat
  free : Nat
  rolled : Rollover
  mon : Monitor
  rstnLow : Bool
  rstnAsserted : Bool
  rstnReleaseAt : Option Nat
  straps : BitVec 3
  time : Timescale
  secp : Bool
  secpRise : Nat
  secpFell : Option SecpFall
  disc : Discipline
  interps : Vector Interp 13
  calExpiry : Option Nat
  lines : Vector Line 8
  arrivals : Vector (List Arrival) 8
  channels : List (Nat × Entry)
  pairModes : Vector PairMode 4
  unmapped : Vector (BitVec 8) 3
  markers : Vector Marker 4
  markerSubs : Vector (BitVec 4) 3
  markerPending : Vector (Vector Nat 4) 3
  pool : Pool
  ports : Vector Port 3
deriving DecidableEq, Repr

/-- The reasons the block could stop with a fault. The spec gives none: every command leaves a next state.
Raised by nothing; safe. -/
inductive Fault
deriving DecidableEq, Repr

/-- The reasons a command could be refused. -/
inductive Refusal where
  /-- A command without a meaning in this model. Raised by no arm, since every row has its meaning; safe. -/
  | notModelled (mnemonic : String)
deriving DecidableEq, Repr

/-! ## Power-on values -/

/-- 02 R50. -/
def DisciplineSettings.reset : DisciplineSettings :=
  { slewLimit := 50000, a := 3, b := 1, window := 1, lockThreshold := 2, lockCount := 4,
    reacquireCount := 4, stepThreshold := 1, holdoverLimit := 2, calInterval := 2, secpWidth := 3,
    lockoSource := .locked, polarity := .activeHigh }

/-- 02 R55. -/
def Discipline.reset : Discipline :=
  { state := .unset, rate := 0, slew := 0, suspect := false, good := 0, faults := 0, reacquired := 0,
    age := 0, instant := none, expected := none, window := none, silence := none, label := none,
    settings := .reset, qualityAt := none }

/-- 01 R23. -/
def Timescale.reset : Timescale := { sec := 0, ns := 0, frac := 0, epoch := 0, inc := Config.nominalInc, excess := 0 }

/-- 03 R70: with no table; the collection starts at the release. -/
def Interp.reset : Interp :=
  { presented := [], captured := 0, conv := none, sample := none, lastEnd := none, coarse := [],
    table := none, collection := none, busy := 0, calibrations := 0 }

/-- 04 R74, R92. -/
def Line.reset : Line :=
  { settings := { enable := false, comp := 0, quietMs := 1000 }, state := .disabled, lock := false,
    quiet := none, frames := [], frameCount := 0, damaged := 0, unmapped := 0, coarseCount := 0 }

/-- 07 R134, R144; the level of the pin is DESIGN CHOICE LOW (log entry 12). -/
def Marker.reset : Marker :=
  { settings := { select := .off, width := 1, comp := 0 }, level := false, rawSeen := 0,
    qualified := false, candidate := none, waiting := [], count := 0, glitches := 0, log := [] }

/-- 05 R93: the empty window. -/
def PairWindow.empty : PairWindow :=
  { base := none, slots := List.replicate 64 .vacant, highest := none, deadline := none, armedAt := none,
    stale := 0 }

/-- 05 R97: every counter 0. -/
def ChannelCounters.zero : ChannelCounters :=
  { leaderA := 0, leaderB := 0, followers := 0, repeats := 0, late := 0, stale := 0, gaps := 0,
    rebases := 0, damaged := 0, short := 0 }

/-- 09 R182. -/
def PortCounters.zero : PortCounters :=
  { received := 0, bad := 0, dropped := 0, refusals := 0, framesSent := 0, itemsSent := 0, linkLosses := 0 }

/-- 08 R164, 09 R182; the permit before the first sample is DESIGN CHOICE not held (log entry 12). -/
def Port.reset : Port :=
  { state := .down, permit := false, credits := 0, pacing := { heartbeat := 0, holdMs := 100, silence := 2 },
    holdTimer := none, silenceTimer := none, cmds := [], tx := none, cause := .none, counters := .zero,
    queue := [], quota := Config.startQuota, lagging := false, lossTotal := 0, notices := [], attention := 0,
    hbTimer := none, hbPending := false, orphans := [], linkLost := false }

/-- 10 R184, with VIO present, since it rises with or before VCORE (10.7; log entry 38). -/
def Monitor.reset : Monitor :=
  { phase := .startup, rc := 0, good := 0, noTick := 0, cause := .powerOn, invalid := true,
    latched := false, latchReleased := false, supplyLow := false, vio := true }

/-- The block right after power-on (10 R184 and the power-on columns of 01 R23, 02 R55, 03 R70, 04 R92,
05 R107, 07 R144, 08 R164, 09 R182). Pins and the model's own fields: log entry 12. -/
def State.reset : State :=
  { pending := [], tick := 0, edgeSeq := 0, free := 0, rolled := .none, mon := .reset, rstnLow := false,
    rstnAsserted := false, rstnReleaseAt := none, straps := 0, time := .reset, secp := false, secpRise := 0,
    secpFell := none,
    disc := .reset, interps := Vector.replicate 13 .reset, calExpiry := none,
    lines := Vector.replicate 8 .reset, arrivals := Vector.replicate 8 [], channels := [],
    pairModes := Vector.replicate 4 .paired, unmapped := Vector.replicate 3 0,
    markers := Vector.replicate 4 .reset, markerSubs := Vector.replicate 3 0,
    markerPending := Vector.replicate 3 (Vector.replicate 4 0),
    pool := { entries := [], next := 0, fromEngine := [], fromMarkers := [] },
    ports := Vector.replicate 3 .reset }

end Sys2Proof.Machine
end

