-- ==== Sys2Proof/Machine/Ops.lean ====
section
/-! DEFINITION. Named operations over the parts of the state, shared by every meaning: saturating counts,
clamping and rounding, the one way each bank of the state is written, and the conditions that hang on a
port's fields whenever they change. -/

namespace Sys2Proof.Machine

/-! ## Numbers (00 "Conventions") -/

/-- Add one and stop at the limit of the 32-bit counters. -/
def satInc (n : Nat) : Nat := min (n + 1) Config.counterMax

/-- Add and stop at the limit of the 32-bit counters. -/
def satAdd (n k : Nat) : Nat := min (n + k) Config.counterMax

/-- Clamp a number to a range. -/
def clampNat (lo hi n : Nat) : Nat := max lo (min hi n)

/-- Clamp a signed number to a range. -/
def clampInt (lo hi n : Int) : Int := max lo (min hi n)

/-- The quotient by a positive number rounded half away from zero. -/
def roundHalfAway (n : Int) (d : Nat) : Int := Int.sign n * (((2 * n.natAbs + d) / (2 * d) : Nat) : Int)

/-- The limit of the amount field of a TIMESCALE notice (01 R12). -/
def clampAmount (n : Int) : Int := clampInt (-(2 ^ 63 - 1)) (2 ^ 63 - 1) n

/-! ## Sweeps -/

/-- Apply a step to each element of a list in turn. -/
def sweep {α σ : Type} (f : α → σ → σ) : List α → σ → σ
  | [], s => s
  | x :: xs, s => sweep f xs (f x s)

/-- Apply a step a number of times. -/
def times {σ : Type} (f : σ → σ) : Nat → σ → σ
  | 0, s => s
  | n + 1, s => times f n (f s)

/-- The ports, the lines, the marker inputs and all inputs, each in order. -/
def allPorts : List (Fin 3) := [0, 1, 2]
def allLines : List (Fin 8) := [0, 1, 2, 3, 4, 5, 6, 7]
def allMarkers : List (Fin 4) := [0, 1, 2, 3]
def allInputs : List Input := allLines.map .line ++ allMarkers.map .marker ++ [.ref]

/-! ## The core runs -/

/-- In RUN the core runs; in every other monitor state it is held or frozen and no block takes an event
(10 R183). -/
def State.running (s : State) : Bool := s.mon.phase == .run

/-! ## Banks -/

/-- The place of an input's interpolator: FI0 to FI7, MI0 to MI3, RI (03 R56). -/
def Input.index : Input → Fin 13
  | .line l => ⟨l.val, by omega⟩
  | .marker m => ⟨8 + m.val, by omega⟩
  | .ref => 12

/-- The interpolator of an input. -/
def State.interp (s : State) (i : Input) : Interp := s.interps[Input.index i]

/-- Change the interpolator of an input. -/
def State.updInterp (i : Input) (f : Interp → Interp) (s : State) : State :=
  { s with interps := s.interps.set (Input.index i) (f s.interps[Input.index i]) }

/-- Change every interpolator alike. -/
def State.mapInterps (f : Interp → Interp) (s : State) : State :=
  { s with interps := #v[f s.interps[0], f s.interps[1], f s.interps[2], f s.interps[3], f s.interps[4],
      f s.interps[5], f s.interps[6], f s.interps[7], f s.interps[8], f s.interps[9], f s.interps[10],
      f s.interps[11], f s.interps[12]] }

/-- Change one line. -/
def State.updLine (l : Fin 8) (f : Line → Line) (s : State) : State :=
  { s with lines := s.lines.set l (f s.lines[l]) }

/-- Change every line alike. -/
def State.mapLines (f : Line → Line) (s : State) : State :=
  { s with lines := #v[f s.lines[0], f s.lines[1], f s.lines[2], f s.lines[3], f s.lines[4], f s.lines[5],
      f s.lines[6], f s.lines[7]] }

/-- Change one marker input. -/
def State.updMarker (m : Fin 4) (f : Marker → Marker) (s : State) : State :=
  { s with markers := s.markers.set m (f s.markers[m]) }

/-- Change every marker input alike. -/
def State.mapMarkers (f : Marker → Marker) (s : State) : State :=
  { s with markers := #v[f s.markers[0], f s.markers[1], f s.markers[2], f s.markers[3]] }

/-- Change the discipline controller. -/
def State.updDisc (f : Discipline → Discipline) (s : State) : State := { s with disc := f s.disc }

/-- Change the monitor. -/
def State.updMon (f : Monitor → Monitor) (s : State) : State := { s with mon := f s.mon }

/-! ## Ports -/

/-- The silence timeout in core ticks: 1, 4, 16 or 64 ms (09 R170, R179). -/
def Pacing.silenceTicks (p : Pacing) : Nat := 4 ^ p.silence.val * Config.ticksPerMs

/-- The heartbeat period in core ticks, absent when OFF: code n + 1 is 2^n ms (08 R162). -/
def Pacing.heartbeatTicks (p : Pacing) : Option Nat :=
  if p.heartbeat.val = 0 then none else some (2 ^ (p.heartbeat.val - 1) * Config.ticksPerMs)

/-- The silence condition (09 R170). -/
def Port.silent (p : Port) : Bool := p.state == .streaming && p.credits == 0 && !p.queue.isEmpty

/-- A port to which records are offered and at which notices are raised (08 R147, R157). -/
def Port.inService (p : Port) : Bool := p.state == .streaming || p.state == .held

/-- Whether the queue may take one more record (08 R147). -/
def Port.hasRoom (p : Port) : Bool := p.queue.length < p.quota

/-- The commitment of a port (08 R152). -/
def Port.commitment (p : Port) : Nat := max p.quota p.queue.length

/-- What hangs on the other fields of a port after every change of it: the silence timer runs exactly while
the silence condition holds, starting when it comes to hold (09 R170), and lagging clears when the queue is
below the quota (08 R155). -/
def Port.settle (tick : Nat) (p : Port) : Port :=
  { p with
    silenceTimer :=
      if p.silent then some (p.silenceTimer.getD (tick + p.pacing.silenceTicks)) else none
    lagging := p.lagging && !p.hasRoom }

/-- Change one port. -/
def State.updPort (p : Fin 3) (f : Port → Port) (s : State) : State :=
  { s with ports := s.ports.set p ((f s.ports[p]).settle s.tick) }

/-- Change every port, each by its number. -/
def State.mapPorts (f : Fin 3 → Port → Port) (s : State) : State :=
  { s with ports := #v[(f 0 s.ports[0]).settle s.tick, (f 1 s.ports[1]).settle s.tick,
      (f 2 s.ports[2]).settle s.tick] }

/-- The sum of the three quotas. -/
def State.quotaSum (s : State) : Nat := s.ports[0].quota + s.ports[1].quota + s.ports[2].quota

/-- The sum of the three commitments (08 R152). -/
def State.commitmentSum (s : State) : Nat :=
  s.ports[0].commitment + s.ports[1].commitment + s.ports[2].commitment

/-- The commitments of the two ports other than `p` (08 R153). -/
def State.otherCommitments (p : Fin 3) (s : State) : Nat := s.commitmentSum - s.ports[p].commitment

/-- A set of ports given by a test of each. -/
def portSet (f : Fin 3 → Bool) : Vector Bool 3 := #v[f 0, f 1, f 2]

/-! ## Pool entries (08 R145, R150, R151) -/

/-- Lower the reference count of every entry whose number is in the list by one; an entry whose count
reaches 0 becomes FREE. -/
def releaseRefs (ids : List Nat) (entries : List PoolEntry) : List PoolEntry :=
  entries.filterMap fun e =>
    if ids.contains e.id then (if e.refs ≤ 1 then none else some { e with refs := e.refs - 1 }) else some e

/-- Release references of one queue. -/
def State.releaseIds (ids : List Nat) (s : State) : State :=
  { s with pool := { s.pool with entries := releaseRefs ids s.pool.entries } }

/-! ## Channel table (05 R93) -/

/-- The entry at an index, absent when EMPTY. -/
def tableGet (i : Nat) : List (Nat × Entry) → Option Entry
  | [] => none
  | (j, e) :: t => if i = j then some e else tableGet i t

/-- Write the entry at an index, keeping the indexes in rising order. -/
def tableSet (i : Nat) (e : Entry) : List (Nat × Entry) → List (Nat × Entry)
  | [] => [(i, e)]
  | (j, x) :: t =>
    if i < j then (i, e) :: (j, x) :: t
    else if i = j then (i, e) :: t
    else (j, x) :: tableSet i e t

/-- Make an index EMPTY. -/
def tableErase (i : Nat) (t : List (Nat × Entry)) : List (Nat × Entry) := t.filter fun p => p.1 ≠ i

/-- Change every OCCUPIED entry alike. -/
def tableMap (f : Nat → Entry → Entry) (t : List (Nat × Entry)) : List (Nat × Entry) :=
  t.map fun p => (p.1, f p.1 p.2)

end Sys2Proof.Machine
end

