-- ==== Sys2Proof/Machine/Operands.lean ====
section
/-! DEFINITION. The operands of the block: numbers in bytes, the CRC, the codes of named values, and the
commands a command frame carries (11). -/

namespace Sys2Proof.Machine

/-! ## Numbers in bytes -/

/-- The number in some bytes, most significant first (11). -/
def beNat (bs : List Byte) : Nat := bs.foldl (fun n b => n * 256 + b.toNat) 0

/-- A number in `k` bytes, most significant first (11). -/
def toBytes : Nat → Nat → List Byte
  | 0, _ => []
  | k + 1, n => BitVec.ofNat 8 (n / 256 ^ k) :: toBytes k n

/-- A signed number in `k` bytes, two's complement (11). -/
def toBytesInt (k : Nat) (n : Int) : List Byte := toBytes k (n % (256 ^ k : Nat)).toNat

/-- A signed number of four bytes. -/
def beInt32 (bs : List Byte) : Int := (BitVec.ofNat 32 (beNat bs)).toInt

/-- Some bytes from a place on. -/
def bytesAt (i k : Nat) (bs : List Byte) : List Byte := (bs.drop i).take k

/-- The number in `k` bytes from a place on. -/
def numAt (i k : Nat) (bs : List Byte) : Nat := beNat (bytesAt i k bs)

/-- A flag as a byte. -/
def flagByte (b : Bool) : Byte := if b then 1 else 0

/-- Flags as the bits of a byte, bit 0 first. -/
def flagBits : List Bool → Byte
  | [] => 0
  | b :: bs => (flagBits bs <<< 1) ||| flagByte b

/-! ## The CRC (11 R190, 04 R79) -/

/-- One bit of the check, least significant bit first: the generator 04C11DB7 with its bits reversed. -/
def crcBit (r : BitVec 32) : BitVec 32 :=
  if r.getLsbD 0 then (r >>> 1) ^^^ 0xEDB88320#32 else r >>> 1

/-- One byte of the check. -/
def crcByte (r : BitVec 32) (b : Byte) : BitVec 32 := times crcBit 8 (r ^^^ b.setWidth 32)

/-- The check over some bytes: the register starts at all ones and is complemented at the end. -/
def crc32 (bs : List Byte) : BitVec 32 := ~~~(bs.foldl crcByte 0xFFFFFFFF#32)

/-- The check as sent, least significant byte first. -/
def crcBytes (bs : List Byte) : List Byte :=
  let c := crc32 bs
  [c.setWidth 8, (c >>> 8).setWidth 8, (c >>> 16).setWidth 8, (c >>> 24).setWidth 8]

/-- Whether the last four bytes are the check of those before them. -/
def crcGood (bs : List Byte) : Bool := bs.drop (bs.length - 4) == crcBytes (bs.take (bs.length - 4))

/-! ## Codes of named values (11.6) -/

def Quality.code : Quality → Nat
  | .unset => 0
  | .freerun => 1
  | .settling => 2
  | .locked => 3
  | .holdover => 4

def Verdict.code : Verdict → Nat
  | .none => 0
  | .truncated => 1
  | .oversize => 2
  | .runt => 3
  | .fcs => 4

def UnmappedCause.code : UnmappedCause → Nat
  | .noChannel => 0
  | .unkeyed .notIpv4 => 1
  | .unkeyed .taggedTwice => 2
  | .unkeyed .badHeader => 3
  | .unkeyed .fragment => 4
  | .unkeyed .notUdp => 5
  | .unkeyed .headerCut => 6

def Classification.code : Classification → Nat
  | .leader => 0
  | .follower => 1
  | .repeated => 2
  | .late => 3
  | .stale => 4
  | .unsequenced => 5
  | .damaged => 6
  | .short => 7

def GapCause.code : GapCause → Nat
  | .overrun => 0
  | .timeout => 1
  | .rebase => 2

def PortState.code : PortState → Nat
  | .down => 0
  | .detached => 1
  | .streaming => 2
  | .held => 3

def LineState.code : LineState → Nat
  | .disabled => 0
  | .dark => 1
  | .quiet => 2
  | .live => 3

def DetachCause.code : DetachCause → Nat
  | .none => 0
  | .command => 1
  | .silence => 2
  | .reset => 3
  | .link => 4

def TimescaleKind.code : TimescaleKind → Nat
  | .step => 0
  | .labelAtPulse => 1
  | .labelAtFallback => 2

def ReferenceKind.code : ReferenceKind → Nat
  | .doublePulse => 0
  | .noPulse => 1
  | .outlier => 2
  | .outOfWindow => 3
  | .missedWindow => 4
  | .reacquired => 5

def ReleaseCause.code : ReleaseCause → Nat
  | .powerOn => 0
  | .supplyDip => 1
  | .clockStop => 2

/-- The kind and the number of a record named by SETTINGS (11.3). -/
def SettingsRecord.codes : SettingsRecord → Nat × Nat
  | .discipline => (0, 0)
  | .line l => (1, l.val)
  | .marker m => (2, m.val)
  | .pairMode p => (3, p.val)
  | .channel i => (4, i.val)

/-- The kind and the number of a scope (11.4). -/
def Scope.codes : Scope → Nat × Nat
  | .pair p => (0, p.val)
  | .line l => (1, l.val)

/-- A scope kind and number that name a scope (05 R96). -/
def Scope.ofCodes (kind number : Nat) : Option Scope :=
  if kind = 0 then (if h : number < 4 then some (.pair ⟨number, h⟩) else none)
  else if kind = 1 then (if h : number < 8 then some (.line ⟨number, h⟩) else none)
  else none

def PairMode.code : PairMode → Nat
  | .paired => 0
  | .independent => 1

def PairMode.ofCode : Nat → Option PairMode
  | 0 => some .paired
  | 1 => some .independent
  | _ => none

def ByteOrder.code : ByteOrder → Nat
  | .msbFirst => 0
  | .lsbFirst => 1

def ByteOrder.ofCode : Nat → Option ByteOrder
  | 0 => some .msbFirst
  | 1 => some .lsbFirst
  | _ => none

def Level.code : Level → Nat
  | .none => 0
  | .leaders => 1
  | .all => 2

/-- A level that Subscribe and Unsubscribe may carry: LEADERS or ALL (05 R101). -/
def Level.ofCode : Nat → Option Level
  | 1 => some .leaders
  | 2 => some .all
  | _ => Option.none

def EdgeSelect.code : EdgeSelect → Nat
  | .off => 0
  | .rising => 1
  | .falling => 2
  | .both => 3

def EdgeSelect.ofCode : Nat → Option EdgeSelect
  | 0 => some .off
  | 1 => some .rising
  | 2 => some .falling
  | 3 => some .both
  | _ => none

def Direction.code : Direction → Nat
  | .rising => 0
  | .falling => 1

def LockoSource.code : LockoSource → Nat
  | .locked => 0
  | .lockedOrHoldover => 1
  | .invalid => 2
  | .lineNotLive => 3

def LockoSource.ofCode : Nat → Option LockoSource
  | 0 => some .locked
  | 1 => some .lockedOrHoldover
  | 2 => some .invalid
  | 3 => some .lineNotLive
  | _ => none

def Polarity.code : Polarity → Nat
  | .activeHigh => 0
  | .activeLow => 1

def Polarity.ofCode : Nat → Option Polarity
  | 0 => some .activeHigh
  | 1 => some .activeLow
  | _ => none

/-- A code of a field with four values. -/
def code4 (n : Nat) : Option (Fin 4) := if h : n < 4 then some ⟨n, h⟩ else none

/-- A heartbeat period code, 0 to 11 (09 R179, 11.6). -/
def code12 (n : Nat) : Option (Fin 12) := if h : n < 12 then some ⟨n, h⟩ else none

/-- The format of a sequence mode code and a byte order code that name values, with the fields the mode
stores (05 R96). -/
def SeqFormat.ofCodes (mode offset order countOffset : Nat) : Option SeqFormat :=
  (ByteOrder.ofCode order).bind fun o =>
    match mode with
    | 0 => some .none
    | 1 => some (.packet (BitVec.ofNat 8 offset) o)
    | 2 => some (.message (BitVec.ofNat 8 offset) o (BitVec.ofNat 8 countOffset))
    | _ => Option.none

/-- The bytes of a format: mode, offset, order, count offset; fields stored absent are zero (11 R192). -/
def SeqFormat.bytes : SeqFormat → List Byte
  | .none => [0, 0, 0, 0]
  | .packet off o => [1, off, BitVec.ofNat 8 (ByteOrder.code o), 0]
  | .message off o cnt => [2, off, BitVec.ofNat 8 (ByteOrder.code o), cnt]

/-! ## Commands (11.4) -/

/-- The commands of the drop links. Arguments that a command's own rule judges are plain numbers. -/
inductive Command where
  | attach (credits : Nat)
  | detach
  | hold
  | release
  | grantCredits (count : Nat)
  | setQuota (requested : Nat)
  | setPacing (heartbeat holdMs silence : Nat)
  | subscribe (first last level : Nat)
  | unsubscribe (first last level : Nat)
  | subscribeMarkers (set : BitVec 4)
  | subscribeUnmapped (set : BitVec 8)
  | queryTime
  | readStatus
  | readChannel (index : Nat)
  | swapMarkers
  | readMarkerLog (input : Nat)
  | resetPort
  | writeChannel (index scopeKind scopeNumber : Nat) (addr : BitVec 32) (port : BitVec 16)
      (mode offset order countOffset gapUs : Nat)
  | removeChannel (index : Nat)
  | setPairMode (pair mode : Nat)
  | writeLineSettings (line enable : Nat) (comp : BitVec 16) (quietMs : Nat)
  | writeMarkerSettings (input select width : Nat) (comp : BitVec 16)
  | writeDisciplineSettings (slewLimit a b window lockThreshold lockCount reacquireCount stepThreshold
      holdoverLimit calInterval secpWidth lockoSource polarity : Nat)
  | labelNextPulse (value : Nat)
  | trimRate (rate : Int)
  | clearInvalid
deriving DecidableEq, Repr

/-- The argument length of each command code (11.4), absent for a code that names no command. -/
def argLength : Nat → Option Nat
  | 1 | 5 | 6 | 14 | 33 | 34 => some 2
  | 2 | 3 | 4 | 12 | 13 | 15 | 17 | 40 => some 0
  | 7 | 39 => some 4
  | 8 | 9 | 36 => some 5
  | 10 | 11 | 16 => some 1
  | 32 | 37 => some 16
  | 35 => some 6
  | 38 => some 8
  | _ => none

/-- The command of a code with arguments of the right length (11.4). -/
def commandOf (code : Nat) (a : List Byte) : Option Command :=
  match code with
  | 1 => some (.attach (numAt 0 2 a))
  | 2 => some .detach
  | 3 => some .hold
  | 4 => some .release
  | 5 => some (.grantCredits (numAt 0 2 a))
  | 6 => some (.setQuota (numAt 0 2 a))
  | 7 => some (.setPacing (numAt 0 1 a) (numAt 1 2 a) (numAt 3 1 a))
  | 8 => some (.subscribe (numAt 0 2 a) (numAt 2 2 a) (numAt 4 1 a))
  | 9 => some (.unsubscribe (numAt 0 2 a) (numAt 2 2 a) (numAt 4 1 a))
  | 10 => some (.subscribeMarkers (BitVec.ofNat 4 (numAt 0 1 a)))
  | 11 => some (.subscribeUnmapped (BitVec.ofNat 8 (numAt 0 1 a)))
  | 12 => some .queryTime
  | 13 => some .readStatus
  | 14 => some (.readChannel (numAt 0 2 a))
  | 15 => some .swapMarkers
  | 16 => some (.readMarkerLog (numAt 0 1 a))
  | 17 => some .resetPort
  | 32 => some (.writeChannel (numAt 0 2 a) (numAt 2 1 a) (numAt 3 1 a) (BitVec.ofNat 32 (numAt 4 4 a))
      (BitVec.ofNat 16 (numAt 8 2 a)) (numAt 10 1 a) (numAt 11 1 a) (numAt 12 1 a) (numAt 13 1 a)
      (numAt 14 2 a))
  | 33 => some (.removeChannel (numAt 0 2 a))
  | 34 => some (.setPairMode (numAt 0 1 a) (numAt 1 1 a))
  | 35 => some (.writeLineSettings (numAt 0 1 a) (numAt 1 1 a) (BitVec.ofNat 16 (numAt 2 2 a)) (numAt 4 2 a))
  | 36 => some (.writeMarkerSettings (numAt 0 1 a) (numAt 1 1 a) (numAt 2 1 a) (BitVec.ofNat 16 (numAt 3 2 a)))
  | 37 => some (.writeDisciplineSettings (numAt 0 4 a) (numAt 4 1 a) (numAt 5 1 a) (numAt 6 1 a) (numAt 7 1 a)
      (numAt 8 1 a) (numAt 9 1 a) (numAt 10 1 a) (numAt 11 1 a) (numAt 12 1 a) (numAt 13 1 a) (numAt 14 1 a)
      (numAt 15 1 a))
  | 38 => some (.labelNextPulse (numAt 0 8 a))
  | 39 => some (.trimRate (beInt32 (bytesAt 0 4 a)))
  | 40 => some .clearInvalid
  | _ => none

/-- The command of a frame without its CRC, absent when the code names no command, the argument length is
not the command's, or the total length does not match (11 R191). -/
def parseCommand (bytes : List Byte) : Option Command :=
  match bytes with
  | code :: len :: args =>
    if argLength code.toNat = some len.toNat ∧ args.length = len.toNat then commandOf code.toNat args else none
  | _ => none

/-- The commands that need the permit (09 R178). -/
def Command.needsPermit : Command → Bool
  | .writeChannel .. | .removeChannel .. | .setPairMode .. | .writeLineSettings ..
  | .writeMarkerSettings .. | .writeDisciplineSettings .. | .labelNextPulse .. | .trimRate ..
  | .clearInvalid => true
  | .attach .. | .detach | .hold | .release | .grantCredits .. | .setQuota .. | .setPacing ..
  | .subscribe .. | .unsubscribe .. | .subscribeMarkers .. | .subscribeUnmapped .. | .queryTime
  | .readStatus | .readChannel .. | .swapMarkers | .readMarkerLog .. | .resetPort => false

/-- The commands that the port itself owns (09 R178). A Reset Port is the port's until its own part is taken. -/
def Command.ownedByPort : Command → Bool
  | .attach .. | .detach | .hold | .release | .grantCredits .. | .setPacing .. | .readStatus
  | .resetPort => true
  | .setQuota .. | .subscribe .. | .unsubscribe .. | .subscribeMarkers .. | .subscribeUnmapped ..
  | .queryTime | .readChannel .. | .swapMarkers | .readMarkerLog .. | .writeChannel ..
  | .removeChannel .. | .setPairMode .. | .writeLineSettings .. | .writeMarkerSettings ..
  | .writeDisciplineSettings .. | .labelNextPulse .. | .trimRate .. | .clearInvalid => false

/-! ## Replies (09 R176) -/

/-- The reply codes. -/
inductive ReplyCode where
  | done
  | doneClamped
  | refusedPermit
  | refusedState
  | refusedCapacity
  | refusedConflict
  | stillSettling
  | malformed
deriving DecidableEq, Repr

def ReplyCode.code : ReplyCode → Nat
  | .done => 0
  | .doneClamped => 1
  | .refusedPermit => 2
  | .refusedState => 3
  | .refusedCapacity => 4
  | .refusedConflict => 5
  | .stillSettling => 6
  | .malformed => 7

/-- A reply before it is laid out: its code, the reading that its data begin with, which Query Time alone has, and
its further data. -/
structure Reply where
  code : ReplyCode
  time : Option Stamp
  data : List Byte
deriving DecidableEq, Repr

/-- A reply without data. -/
def Reply.bare (c : ReplyCode) : Reply := { code := c, time := none, data := [] }

/-- DONE, or DONE_CLAMPED when a value was brought into its range. -/
def Reply.carriedOut (clamped : Bool) (data : List Byte) : Reply :=
  { code := if clamped then .doneClamped else .done, time := none, data := data }

end Sys2Proof.Machine
end

