-- ==== Sys2Proof/Machine/Parsing.lean ====
section
/-! DEFINITION. What a frame's bytes say (04.3 and 04.5): the damage verdict and the parse. -/

namespace Sys2Proof.Machine

/-- A 16-bit field, most significant byte first, absent where the bytes end before it. -/
def field16 (i : Nat) (d : List Byte) : Option Nat :=
  match d[i]?, d[i + 1]? with
  | some a, some b => some (a.toNat * 256 + b.toNat)
  | _, _ => none

/-- A 32-bit field, most significant byte first, absent where the bytes end before it. -/
def field32 (i : Nat) (d : List Byte) : Option Nat :=
  match field16 i d, field16 (i + 2) d with
  | some a, some b => some (a * 65536 + b)
  | _, _ => none

/-- The key and the payload of a UDP datagram whose checks have passed (04 R85). -/
def parseUdp (d : List Byte) (h ihl total : Nat) : Parse :=
  let u := h + 4 * ihl
  match field32 (h + 16) d, field16 (u + 2) d with
  | some addr, some port =>
    let len := min (h + total) d.length - (u + 8)
    .keyed { addr := BitVec.ofNat 32 addr, port := BitVec.ofNat 16 port } len
      ((d.drop (u + 8)).take (min len 259))
  | _, _ => .unkeyed .headerCut

/-- The IPv4 header at `h`: the checks in their order, the first that fails decides (04 R84, R86). -/
def parseIp (d : List Byte) (h : Nat) : Parse :=
  match d[h]? with
  | none => .unkeyed .headerCut
  | some b =>
    if b.toNat / 16 ≠ 4 then .unkeyed .notIpv4
    else if b.toNat % 16 < 5 then .unkeyed .badHeader
    else match field16 (h + 2) d with
      | none => .unkeyed .headerCut
      | some total =>
        if total < 4 * (b.toNat % 16) + 8 then .unkeyed .badHeader
        else match field16 (h + 6) d with
          | none => .unkeyed .headerCut
          | some frag =>
            if frag % 8192 ≠ 0 then .unkeyed .fragment
            else match d[h + 9]? with
              | none => .unkeyed .headerCut
              | some proto =>
                if proto.toNat ≠ 17 then .unkeyed .notUdp else parseUdp d h (b.toNat % 16) total

/-- The bytes before the FCS, from the type on (04 R83). -/
def parseFrame (d : List Byte) : Parse :=
  match field16 12 d with
  | none => .unkeyed .headerCut
  | some type =>
    if type = 2048 then parseIp d 14
    else if type = 33024 then
      match field16 16 d with
      | none => .unkeyed .headerCut
      | some inner =>
        if inner = 2048 then parseIp d 18
        else if inner = 33024 then .unkeyed .taggedTwice
        else .unkeyed .notIpv4
    else .unkeyed .notIpv4

/-- The damage verdict: the first reason that applies (04 R79). -/
def verdictOf (bytes : List Byte) (early : Bool) : Verdict :=
  if early then .truncated
  else if 9216 < bytes.length then .oversize
  else if bytes.length < 64 then .runt
  else if crcGood bytes then .none
  else .fcs

/-- How far the parse of a frame has come when it is decided. -/
def Parse.progress : Parse → Progress
  | .unkeyed cause => .unkeyed cause
  | .keyed key len _ => .keyed key len

/-- The field bytes that a parse has kept. -/
def Parse.fields : Parse → List Byte
  | .unkeyed _ => []
  | .keyed _ _ fields => fields

/-- The outcome of the parse at the frame's end, from its progress and the field bytes (04 R85, R86). -/
def Progress.outcome (fields : List Byte) : Progress → Parse
  | .header => .unkeyed .headerCut
  | .unkeyed cause => .unkeyed cause
  | .keyed key len => .keyed key len fields

/-- A frame at its end, from the bytes it has received: its byte count, which stops at 65,535, where the frame has
ended as OVERSIZE, its parse, and its damage verdict (04 R78, R79, R83). -/
def Frame.endWith (bytes : List Byte) (early : Bool) (f : Frame) : Frame :=
  let kept := bytes.take 65535
  let parse := parseFrame (kept.take (kept.length - 4))
  { f with
    count := kept.length
    progress := parse.progress
    fields := parse.fields
    ended := some (verdictOf kept (early && bytes.length < 65535)) }

/-- The number in the bytes of a field, in the channel's byte order (04 R89). -/
def orderedNat (o : ByteOrder) (bs : List Byte) : Nat :=
  match o with
  | .msbFirst => beNat bs
  | .lsbFirst => beNat bs.reverse

/-- The sequence and the count of a payload by a channel's format, each present when the payload holds it,
and whether the arrival is SHORT (04 R89). -/
def readFields (f : SeqFormat) (payloadLen : Nat) (fields : List Byte) : Option (BitVec 32) × Option Nat × Bool :=
  let seqAt (off : BitVec 8) (o : ByteOrder) : Option (BitVec 32) :=
    if off.toNat + 4 ≤ payloadLen then some (BitVec.ofNat 32 (orderedNat o (bytesAt off.toNat 4 fields))) else none
  match f with
  | .none => (none, none, false)
  | .packet off o => (seqAt off o, none, (seqAt off o).isNone)
  | .message off o cnt =>
    let c := if cnt.toNat + 2 ≤ payloadLen then some (orderedNat o (bytesAt cnt.toNat 2 fields)) else none
    (seqAt off o, c, (seqAt off o).isNone || c.isNone)

end Sys2Proof.Machine
end

