-- ==== Sys2Proof/Machine/Flags.lean ====
section
/-! DEFINITION. The conditions a consumer is told of: notices and their merging (08 R157 to R160), the
attention summary (08 R161), and the QUALITY notice of a change of class (02 R52). -/

namespace Sys2Proof.Machine

/-- The code of a notice kind, which is also its bit in the attention summary (11). -/
def NoticeBody.kind : NoticeBody → Fin 8
  | .timescale .. => 0
  | .quality .. => 1
  | .invalid .. => 2
  | .reference .. => 3
  | .settings .. => 4
  | .line .. => 5
  | .loss .. => 6
  | .holdExpired .. => 7

/-- The values of a pending notice after a repeat is merged into it: the raised values, except that a LOSS
keeps its first stamp and counts on (08 R156, R158). -/
def NoticeBody.merge (pending raised : NoticeBody) : NoticeBody :=
  match pending, raised with
  | .loss c first _ _, .loss _ _ last total => .loss (satInc c) first last total
  | _, r => r

/-- Raise a notice into a pending list (08 R158). -/
def raiseInto (b : NoticeBody) : List Notice → List Notice
  | [] => [{ body := b, repeats := 1 }]
  | n :: ns =>
    if n.body.kind = b.kind then { body := n.body.merge b, repeats := min (n.repeats + 1) 65535 } :: ns
    else n :: raiseInto b ns

/-- Give the pending notice of a kind new values without counting a repeat; raise it where none is pending. -/
def amendInto (b : NoticeBody) : List Notice → List Notice
  | [] => [{ body := b, repeats := 1 }]
  | n :: ns => if n.body.kind = b.kind then { n with body := b } :: ns else n :: amendInto b ns

/-- Set a condition of the attention summary at a port not DOWN (08 R161). -/
def Port.attend (bit : Nat) (p : Port) : Port :=
  if p.state = .down then p else { p with attention := p.attention ||| BitVec.ofNat 9 (2 ^ bit) }

/-- Raise a notice at a port: a pending notice in STREAMING or HELD (08 R157), its condition at a port not
DOWN (08 R161). -/
def Port.notify (b : NoticeBody) (p : Port) : Port :=
  Port.attend b.kind.val (if p.inService then { p with notices := raiseInto b p.notices } else p)

/-- As `Port.notify`, amending the notice already raised at this tick. -/
def Port.amend (b : NoticeBody) (p : Port) : Port :=
  Port.attend b.kind.val (if p.inService then { p with notices := amendInto b p.notices } else p)

/-- Raise a notice at every port (08 R157). -/
def State.notifyAll (b : NoticeBody) (s : State) : State := s.mapPorts fun _ p => p.notify b

/-- The bit of the MARKER condition (08 R161, 11). -/
def markerCondition : Nat := 8

/-- Raise QUALITY if the class or the suspect flag has changed (02 R52). One notice is raised per tick: a
second change at one tick amends the first notice and keeps its state before the tick (log entry 7). -/
def State.raiseQuality (before : Quality) (suspectBefore : Bool) (s : State) : State :=
  if s.disc.state = before ∧ s.disc.suspect = suspectBefore then s
  else if (s.disc.qualityAt.map Prod.fst) = some s.tick then
    s.mapPorts fun _ p =>
      p.amend (.quality ((s.disc.qualityAt.map Prod.snd).getD before) s.disc.state s.disc.suspect)
  else
    (s.updDisc fun d => { d with qualityAt := some (s.tick, before) }).notifyAll
      (.quality before s.disc.state s.disc.suspect)

end Sys2Proof.Machine
end

