-- ==== Sys2Proof/Machine/Timescale.lean ====
section
/-! DEFINITION. The timescale counter (01): its increment, the tick, steps and labels, readings and
deadlines, and the two output pins. -/

namespace Sys2Proof.Machine

/-! ## The increment (01 R2) -/

/-- The total correction in ppb. -/
def totalCorrection (rate slew : Int) : Int := clampInt (-250000) 250000 (rate + slew)

/-- The increment I for a rate and a slew. -/
def increment (rate slew : Int) : Nat :=
  ((Config.nominalInc : Int)
    + roundHalfAway ((Config.nominalInc : Int) * totalCorrection rate slew) 1000000000).toNat

/-! ## The value -/

/-- The time within the second, in units of 2^-32 ns (01 R1). -/
def Timescale.within (t : Timescale) : Nat := t.ns * 2 ^ 32 + t.frac

/-- Set the seconds and the time within the second. -/
def Timescale.put (sec within : Nat) (t : Timescale) : Timescale :=
  { t with sec := sec, ns := within / 2 ^ 32, frac := within % 2 ^ 32, excess := 0 }

/-- The greatest time within the second, in units of 2^-32 ns. -/
def maxWithin : Nat := Config.unitsPerSec - 1

/-- The greatest value, at which counting stays, passed by so many units (01 R1). -/
def Timescale.atMax (excess : Nat) (t : Timescale) : Timescale :=
  { t with sec := Config.maxSec, ns := 999999999, frac := 2 ^ 32 - 1, excess := excess }

/-- The value of the next tick: the increment is added (01 R4). -/
def Timescale.addTick (t : Timescale) : Timescale :=
  if t.within + t.inc < Config.unitsPerSec then t.put t.sec (t.within + t.inc)
  else if Config.maxSec ≤ t.sec then t.atMax (t.within + t.inc - maxWithin)
  else t.put (t.sec + 1) (t.within + t.inc - Config.unitsPerSec)

/-- Whether the next tick is a rollover (01 R5). -/
def Timescale.rolls (t : Timescale) : Bool :=
  decide (Config.unitsPerSec ≤ t.within + t.inc) && decide (t.sec < Config.maxSec)

/-- Whether a correction carries the value into the next second, which is a rollover (01 R14). -/
def Timescale.shiftCarries (d : Int) (t : Timescale) : Bool := decide ((Config.unitsPerSec : Int) ≤ t.within + d)

/-- A correction by at most one second of units, with borrow or carry (01 R1, R11). -/
def Timescale.shift (d : Int) (t : Timescale) : Timescale :=
  let w : Int := t.within + d
  if w < 0 then
    if t.sec = 0 then t.put 0 0 else t.put (t.sec - 1) (w + Config.unitsPerSec).toNat
  else if t.shiftCarries d then t.put (min (t.sec + 1) Config.maxSec) (w - Config.unitsPerSec).toNat
  else t.put t.sec w.toNat

/-- Where in its second the present tick stands when it adds another increment than it has added. -/
def Timescale.reach (inc : Nat) (t : Timescale) : Int := (t.within + t.excess : Nat) + ((inc : Int) - t.inc)

/-- Whether the tick passes the end of its second with another increment, and did not with its own. -/
def Timescale.carries (inc : Nat) (t : Timescale) : Bool :=
  t.inc != inc && decide ((Config.unitsPerSec : Int) ≤ t.reach inc) && decide (t.sec < Config.maxSec)

/-- Whether the tick stays short of the second that it has reached with its own increment. -/
def Timescale.borrows (inc : Nat) (t : Timescale) : Bool :=
  t.inc != inc && decide (t.reach inc < 0) && decide (0 < t.sec)

/-- A change of the increment taken at a tick: that tick adds the new increment in place of the old (01 R3). -/
def Timescale.reincrement (inc : Nat) (t : Timescale) : Timescale :=
  let w := t.reach inc
  let t' := { t with inc := inc }
  if t.inc = inc then t
  else if w < 0 then
    if t.sec = 0 then t'.put 0 0 else t'.put (t.sec - 1) (w + Config.unitsPerSec).toNat
  else if w < Config.unitsPerSec then t'.put t.sec w.toNat
  else if Config.maxSec ≤ t.sec then t'.atMax (w - maxWithin).toNat
  else t'.put (t.sec + 1) (w - Config.unitsPerSec).toNat

/-- The rollover of a tick that passes the end of its second (01 R5, R14). One tick has at most one. -/
def Rollover.forward : Rollover → Rollover
  | .none | .waiting => .waiting
  | .taken | .early => .taken

/-- The rollover of a tick that a change of the increment takes back before the end of the second. -/
def Rollover.back : Rollover → Rollover
  | .none | .waiting => .none
  | .taken | .early => .early

/-- The rollover of the next tick, given whether it passes the end of its second. -/
def Rollover.next (r : Rollover) (rolls : Bool) : Rollover :=
  if !rolls then .none else if r = .early then .taken else .waiting

/-- The increment of new terms, taken at this tick (01 R3). -/
def State.setIncrement (inc : Nat) (s : State) : State :=
  { s with
    time := s.time.reincrement inc
    rolled :=
      if s.time.carries inc then s.rolled.forward
      else if s.time.borrows inc then s.rolled.back
      else s.rolled }

/-! ## Readings and deadlines -/

/-- The sub of a fraction, 0 to 256: divided by 2^24 and rounded half up (01 R6). -/
def subOf (frac : Nat) : Nat := (frac + 2 ^ 23) / 2 ^ 24

/-- The reading at this tick with the conditions in force (01 R6, R7). -/
def State.reading (s : State) : Reading :=
  let at_ (sec ns sub : Nat) : Reading :=
    { sec := sec, ns := ns, sub := sub, epoch := s.time.epoch, quality := s.disc.state,
      invalid := s.mon.invalid, suspect := s.disc.suspect }
  if subOf s.time.frac < 256 then at_ s.time.sec s.time.ns (subOf s.time.frac)
  else if s.time.ns + 1 < Config.nsPerSec then at_ s.time.sec (s.time.ns + 1) 0
  else if s.time.sec < Config.maxSec then at_ (s.time.sec + 1) 0 0
  else at_ Config.maxSec 999999999 255

/-- Seconds compared first, then nanoseconds, then sub (01 R10). -/
def timeLe (sec ns sub sec' ns' sub' : Nat) : Bool :=
  sec < sec' || (sec == sec' && (ns < ns' || (ns == ns' && sub ≤ sub')))

/-- Whether a deadline is reached by a reading (01 R10). -/
def Deadline.reached (d : Deadline) (r : Reading) : Bool :=
  r.epoch != d.epoch || timeLe d.sec d.ns d.sub r.sec r.ns r.sub

/-- A deadline some nanoseconds later, with carry into the seconds. -/
def Deadline.addNs (n : Nat) (d : Deadline) : Deadline :=
  { d with sec := d.sec + (d.ns + n) / Config.nsPerSec, ns := (d.ns + n) % Config.nsPerSec }

/-- The time of a stamp. -/
def Stamp.time (st : Stamp) : Deadline := { sec := st.sec, ns := st.ns, sub := st.sub, epoch := st.epoch }

/-- A time as a whole number of 1/256 ns (06 R117). -/
def unitsOf (sec ns sub : Nat) : Nat := (sec * Config.nsPerSec + ns) * 256 + sub

/-- A reading of a tick as a stamp with COARSE and CLAMPED clear (01 R7, 06 R127). -/
def Reading.toStamp (tick : Nat) (r : Reading) : Stamp :=
  { sec := r.sec, ns := r.ns, sub := r.sub, epoch := r.epoch, quality := r.quality, invalid := r.invalid,
    suspect := r.suspect, coarse := false, clamped := false, readAt := some tick }

/-- The reading of this tick as an item or a record carries it. -/
def State.now (s : State) : Stamp := s.reading.toStamp s.tick

/-- Stamp assembly: the capture reading less the fine offset and the compensation, with at most one borrow;
below zero the stamp is zero with CLAMPED (04 R81, R82). -/
def assembleStamp (r : Reading) (offset : Nat) (comp : Nat) (coarse : Bool) : Stamp :=
  let u := r.ns * 256 + r.sub
  let d := offset + comp
  let at_ (sec v : Nat) (clamped : Bool) : Stamp :=
    { sec := sec, ns := v / 256, sub := v % 256, epoch := r.epoch, quality := r.quality,
      invalid := r.invalid, suspect := r.suspect, coarse := coarse, clamped := clamped,
      readAt := none }
  if d ≤ u then at_ r.sec (u - d) false
  else if 0 < r.sec then at_ (r.sec - 1) (u + 256 * Config.nsPerSec - d) false
  else at_ 0 0 true

/-! ## The pins -/

/-- The nanoseconds at which SECP falls (01 R19). -/
def DisciplineSettings.secpNs (d : DisciplineSettings) : Nat :=
  match d.secpWidth with
  | 0 => 1000
  | 1 => 100000
  | 2 => 10000000
  | 3 => 100000000

/-- Whether the condition that LOCKO reports holds (01 R21). -/
def State.lockoCondition (s : State) : Bool :=
  match s.disc.settings.lockoSource with
  | .locked => s.disc.state == .locked
  | .lockedOrHoldover => s.disc.state == .locked || s.disc.state == .holdover
  | .invalid => s.mon.invalid
  | .lineNotLive =>
    allLines.any fun l => s.lines[l].settings.enable
      && (s.lines[l].state == .dark || s.lines[l].state == .quiet)

/-- The level of LOCKO, true for high: inactive while the core is held or frozen (01 R21). -/
def State.locko (s : State) : Bool :=
  (s.running && s.lockoCondition) == (s.disc.settings.polarity == .activeHigh)

/-- SECP falls at this tick, by the width in force. -/
def State.dropSecp (s : State) : State :=
  { s with secp := false, secpFell := some { tick := s.tick, width := s.disc.settings.secpNs } }

/-- SECP falls at the first tick after its rise whose nanoseconds are at or above the width (01 R19). -/
def State.secpFall (s : State) : State :=
  if s.running && s.secp && s.secpRise < s.tick && s.disc.settings.secpNs ≤ s.time.ns then s.dropSecp else s

/-- Whether the value of the tick of a fall is now below the width it goes by. -/
def SecpFall.isBack (tick ns : Nat) (f : SecpFall) : Bool := f.tick == tick && decide (ns < f.width)

/-- The fall of SECP is judged by the value after every correction of the tick: where a change of the tick has taken
the nanoseconds back below the width after SECP fell at it, SECP is still high (01 R19; log entry 18). -/
def State.rejudgeSecp (s : State) : State :=
  let back := s.secpFell.any (SecpFall.isBack s.tick s.time.ns)
  { s with secp := s.secp || back, secpFell := if back then none else s.secpFell }

/-- A width written while SECP is low has no effect on the pin: a narrower one narrows what the value must be taken back
below, and a wider one changes nothing (01 R20). -/
def State.narrowSecp (width : Nat) (s : State) : State :=
  { s with secpFell := s.secpFell.map fun f => { f with width := min f.width width } }

/-- SECP_FALL. -/
def execSecpFall (s : State) : Host.Outcome State Fault Refusal := .next s.secpFall

end Sys2Proof.Machine
end

