-- ==== Sys2Proof/Machine/Window.lean ====
section
/-! DEFINITION. The pairing window of a channel (06): positions, classification, advance, holes, rebase. -/

namespace Sys2Proof.Machine

/-- The offset of a sequence from a base, modulo 2^32 (06 R109). -/
def seqOffset (s b : BitVec 32) : Nat := (s - b).toNat

/-- Whether a slot is OPEN. -/
def Slot.isVacant (x : Slot) : Bool := x == .vacant

/-- Whether a slot is LOST. -/
def Slot.isLost (x : Slot) : Bool := x == .lost

/-- The offset of the highest marked sequence: the slots below it that are OPEN are the holes (06 R110). -/
def PairWindow.top (w : PairWindow) : Nat :=
  match w.base, w.highest with
  | some b, some h => seqOffset h b
  | _, _ => 0

/-- Whether the window holds a hole (06 R110). -/
def PairWindow.hasHole (w : PairWindow) : Bool := (w.slots.take w.top).any Slot.isVacant

/-- The contiguous runs of OPEN slots, as first offset and length, in rising order; `tail` sequences beyond
the slots follow on (06 R121, R124). `cur` is the length of the run that ends before offset `i`. -/
def vacantRuns : List Slot → Nat → Nat → Nat → List (Nat × Nat)
  | [], i, cur, tail => if cur + tail = 0 then [] else [(i - cur, cur + tail)]
  | x :: xs, i, cur, tail =>
    if x.isVacant then vacantRuns xs (i + 1) (cur + 1) tail
    else if cur = 0 then vacantRuns xs (i + 1) 0 tail
    else (i - cur, cur) :: vacantRuns xs (i + 1) 0 tail

/-- The number of sequences in some runs. -/
def runTotal (rs : List (Nat × Nat)) : Nat := (rs.map Prod.snd).sum

/-- How an arrival is named by the slot of its first sequence, and what the slot becomes (06 R114). -/
structure Mark where
  cls : Classification
  slot : Slot
  lag : Option Int
  overtook : Bool
  acrossEpoch : Bool
deriving DecidableEq, Repr

/-- A mark without lag or flags. -/
def Mark.plain (cls : Classification) (slot : Slot) : Mark :=
  { cls := cls, slot := slot, lag := none, overtook := false, acrossEpoch := false }

/-- The lag of two stamps, clamped (06 R117). -/
def lagOf (later earlier : Stamp) : Int :=
  clampInt (-2147483647) 2147483647
    ((unitsOf later.sec later.ns later.sub : Int) - unitsOf earlier.sec earlier.ns earlier.sub)

/-- Classification by the slot of the first sequence (06 R114, R117, R118, R119). -/
def classify (line : Fin 8) (st : Stamp) : Slot → Mark
  | .vacant => .plain .leader (.seen line st)
  | .seen l st' =>
    if l = line then .plain .repeated (.seen l st')
    else if st.epoch ≠ st'.epoch then
      { cls := .follower, slot := .paired l st', lag := none, overtook := false, acrossEpoch := true }
    else if lagOf st st' < 0 then
      { cls := .follower, slot := .paired line st, lag := some (lagOf st st'), overtook := true, acrossEpoch := false }
    else
      { cls := .follower, slot := .paired l st', lag := some (lagOf st st'), overtook := false, acrossEpoch := false }
  | .paired l st' => .plain .repeated (.paired l st')
  | .lost => .plain .late .recovered
  | .recovered => .plain .repeated .recovered

/-- Marking a later slot of a range (06 R115). -/
def markLater (line : Fin 8) (st : Stamp) : Slot → Slot
  | .vacant => .seen line st
  | .seen l st' => if l = line then .seen l st' else .paired l st'
  | .paired l st' => .paired l st'
  | .lost => .recovered
  | .recovered => .recovered

/-- The slots after the range of `c` slots from slot `d` is marked, the first becoming `first`. -/
def markRange (line : Fin 8) (st : Stamp) (d c : Nat) (first : Slot) (slots : List Slot) : List Slot :=
  slots.take d ++ first :: ((slots.drop (d + 1)).take (c - 1)).map (markLater line st) ++ slots.drop (d + c)

/-- The count of a range: 1 in PACKET mode, the count read clamped to 1 to 64 in MESSAGE mode (06 R112). -/
def rangeCount (count : Option Nat) : Nat := (count.map (clampNat 1 64)).getD 1

/-- Whether the clamp of the count changed it (06 R112). -/
def rangeIsCut (count : Option Nat) : Bool := count.any fun n => n != clampNat 1 64 n

/-- Arm, keep or disarm the gap deadline after a take, from the arrival's stamp (06 R122, R123). -/
def PairWindow.rearm (tick : Nat) (st : Stamp) (gapUs : Nat) (w : PairWindow) : PairWindow :=
  { w with
    deadline := if w.hasHole then some (w.deadline.getD (st.time.addNs (gapUs * 1000))) else none
    armedAt := if w.hasHole then (if w.deadline.isSome then w.armedAt else some tick) else none }

/-- A window whose base is the first sequence of a range (06 R113, R129). -/
def baseWindow (line : Fin 8) (st : Stamp) (s : BitVec 32) (c : Nat) : PairWindow :=
  { base := some s
    slots := List.replicate c (.seen line st) ++ List.replicate (64 - c) .vacant
    highest := some (s + BitVec.ofNat 32 (c - 1))
    deadline := none
    armedAt := none
    stale := 0 }

/-- Whether a line is the A line of an entry's pair, or the line of a LINE scope (05 R104). -/
def Entry.isA (e : Entry) (l : Fin 8) : Bool :=
  match e.scope with
  | .line _ => true
  | .pair _ => l.val % 2 == 0

/-- Count a leader of a line (05 R104). -/
def ChannelCounters.lead (a : Bool) (c : ChannelCounters) : ChannelCounters :=
  if a then { c with leaderA := satInc c.leaderA } else { c with leaderB := satInc c.leaderB }

/-- Take one count from a leader counter; one at its limit is left (05 R104). -/
def uncount (n : Nat) : Nat := if n = Config.counterMax then n else n - 1

/-- Take back a leader of a line (05 R104). -/
def ChannelCounters.unlead (a : Bool) (c : ChannelCounters) : ChannelCounters :=
  if a then { c with leaderA := uncount c.leaderA } else { c with leaderB := uncount c.leaderB }

/-- The counter a classification moves (05 R104); `a` says that the arrival is from the A line. An overtaking
moves one leader count from the other line to this one. -/
def ChannelCounters.classified (m : Mark) (a : Bool) (c : ChannelCounters) : ChannelCounters :=
  match m.cls with
  | .leader => c.lead a
  | .follower =>
    let c := { c with followers := satInc c.followers }
    if m.overtook then (c.unlead !a).lead a else c
  | .repeated => { c with repeats := satInc c.repeats }
  | .late => { c with late := satInc c.late }
  | .stale => { c with stale := satInc c.stale }
  | .unsequenced => c.lead a
  | .damaged => { c with damaged := satInc c.damaged }
  | .short => { c with short := satInc c.short }

/-- The arrival record of a take (06 R130), with the fields a classification fills left absent. -/
def arrivalRecord (i : Nat) (a : Arrival) (cls : Classification) (seq : Option (BitVec 32)) (count : Option Nat) :
    ArrivalRecord :=
  { index := i, cls := cls, line := a.line, stamp := a.stamp, length := a.length, verdict := a.verdict,
    seq := seq, count := count.map (clampNat 1 64), lag := none, marks := none, overtook := false,
    acrossEpoch := false, rangeCut := rangeIsCut count, rebased := false }

/-- The GAP records of some runs (06 R121, R124, R127). -/
def gapRecords (i : Nat) (cause : GapCause) (base after : BitVec 32) (st : Stamp) (runs : List (Nat × Nat)) :
    List Record :=
  runs.map fun r =>
    .gap { index := i, cause := cause, first := base + BitVec.ofNat 32 r.1, count := some r.2,
           baseAfter := after, stamp := st }

/-- The arrival sets the base, or completes a rebase (06 R113, R129). -/
def Entry.takeBase (i : Nat) (a : Arrival) (s : BitVec 32) (count : Option Nat) (rebased : Bool) (e : Entry) :
    Entry × List Record :=
  let c := rangeCount count
  ({ e with win := baseWindow a.line a.stamp s c, cnt := e.cnt.lead (e.isA a.line) },
   [.arrival { arrivalRecord i a .leader (some s) count with marks := some (c, 0), rebased := rebased }])

/-- A STALE arrival: the 64th in a run rebases the window (06 R128, R129). -/
def Entry.takeStale (i : Nat) (a : Arrival) (b s : BitVec 32) (count : Option Nat) (e : Entry) :
    Entry × List Record :=
  let cnt := { e.cnt with stale := satInc e.cnt.stale }
  if e.win.stale + 1 < 64 then
    ({ e with win := { e.win with stale := e.win.stale + 1 }, cnt := cnt },
     [.arrival (arrivalRecord i a .stale (some s) count)])
  else
    let r := Entry.takeBase i a s count true { e with cnt := { cnt with rebases := satInc cnt.rebases } }
    (r.1, .gap { index := i, cause := .rebase, first := b, count := none, baseAfter := s, stamp := a.stamp } :: r.2)

/-- The window moved up by `n` places; slots joining at the top are OPEN (06 R120). -/
def PairWindow.advance (n : Nat) (b : BitVec 32) (w : PairWindow) : PairWindow :=
  { w with base := some (b + BitVec.ofNat 32 n)
           slots := w.slots.drop n ++ List.replicate (min n 64) .vacant }

/-- The sequences declared missing when the window advances by `n` (06 R120, R121). -/
def PairWindow.departing (n : Nat) (w : PairWindow) : List (Nat × Nat) :=
  vacantRuns (w.slots.take n) 0 0 (n - 64)

/-- The arrival is classified at offset `d` of the window and marks its range (06 R111, R114, R115). `last`
is its last sequence, which becomes the highest marked one when `force` is set or it lies higher. -/
def Entry.place (tick i : Nat) (a : Arrival) (s : BitVec 32) (count : Option Nat) (d : Nat) (force : Bool) (e : Entry) :
    Entry × List Record :=
  let c := rangeCount count
  let m := classify a.line a.stamp (e.win.slots.getD d .vacant)
  let range := (e.win.slots.drop d).take c
  let last := s + BitVec.ofNat 32 (c - 1)
  let w : PairWindow :=
    { e.win with
      slots := markRange a.line a.stamp d c m.slot e.win.slots
      highest := if force || e.win.highest.isNone || e.win.top < d + c - 1 then some last else e.win.highest
      stale := 0 }
  ({ e with win := w.rearm tick a.stamp e.gapUs, cnt := e.cnt.classified m (e.isA a.line) },
   [.arrival { arrivalRecord i a m.cls (some s) count with
      lag := m.lag
      marks := some (range.countP Slot.isVacant, range.countP Slot.isLost)
      overtook := m.overtook
      acrossEpoch := m.acrossEpoch }])

/-- A sequenced arrival ahead of or at the base, at offset `d` (06 R111, R112, R120). -/
def Entry.takeAhead (tick i : Nat) (a : Arrival) (b s : BitVec 32) (count : Option Nat) (d : Nat) (e : Entry) :
    Entry × List Record :=
  let c := rangeCount count
  if d + c ≤ 64 then e.place tick i a s count d false
  else
    let n := d + c - 64
    let runs := e.win.departing n
    let r := Entry.place tick i a s count (64 - c) true
      { e with win := e.win.advance n b, cnt := { e.cnt with gaps := satAdd e.cnt.gaps (runTotal runs) } }
    (r.1, gapRecords i .overrun b (b + BitVec.ofNat 32 n) a.stamp runs ++ r.2)

/-- A sequenced arrival (06 R111). -/
def Entry.takeSequenced (tick i : Nat) (a : Arrival) (s : BitVec 32) (count : Option Nat) (e : Entry) :
    Entry × List Record :=
  match e.win.base with
  | none => e.takeBase i a s count false
  | some b =>
    if seqOffset s b < 2 ^ 31 then e.takeAhead tick i a b s count (seqOffset s b) else e.takeStale i a b s count

/-- An arrival whose key is the entry's: DAMAGED, SHORT, UNSEQUENCED or sequenced (05 R94). -/
def Entry.take (tick i : Nat) (a : Arrival) (payloadLen : Nat) (fields : List Byte) (e : Entry) :
    Entry × List Record :=
  match readFields e.fmt payloadLen fields with
  | (seq, count, short) =>
    if a.verdict ≠ .none then
      ({ e with cnt := e.cnt.classified (.plain .damaged .vacant) (e.isA a.line) },
       [.arrival (arrivalRecord i a .damaged seq count)])
    else if short then
      ({ e with cnt := e.cnt.classified (.plain .short .vacant) (e.isA a.line) },
       [.arrival (arrivalRecord i a .short none none)])
    else match seq with
      | none =>
        ({ e with cnt := e.cnt.classified (.plain .unsequenced .vacant) (e.isA a.line) },
         [.arrival (arrivalRecord i a .unsequenced none none)])
      | some s => e.takeSequenced tick i a s count

/-- A hole becomes LOST (06 R124). -/
def loseVacant (x : Slot) : Slot := if x.isVacant then .lost else x

/-- The expiry of the gap deadline, taken at the tick of a reading (06 R124, R127). -/
def Entry.expire (i : Nat) (now : Stamp) (e : Entry) : Entry × List Record :=
  let runs := vacantRuns (e.win.slots.take e.win.top) 0 0 0
  let b := e.win.base.getD 0
  ({ e with
      win := { e.win with
        slots := (e.win.slots.take e.win.top).map loseVacant ++ e.win.slots.drop e.win.top
        deadline := none
        armedAt := none }
      cnt := { e.cnt with gaps := satAdd e.cnt.gaps (runTotal runs) } },
   gapRecords i .timeout b b now runs)

end Sys2Proof.Machine
end

