-- ==== Sys2Proof/Machine/Formats.lean ====
section
/-! DEFINITION. The byte layouts of everything a consumer sees on a drop link (11). -/

namespace Sys2Proof.Machine

/-- Fill with zeros to a length, or cut to it. -/
def padTo (k : Nat) (bs : List Byte) : List Byte := (bs ++ List.replicate k 0).take k

/-- One byte of a number. -/
def byte (n : Nat) : Byte := BitVec.ofNat 8 n

/-! ## Stamps and records (11.1, 11.2) -/

/-- The 12-byte stamp field. -/
def Stamp.bytes (s : Stamp) : List Byte :=
  toBytes 5 s.sec ++ toBytes 4 s.ns ++ [byte s.sub, s.epoch,
    byte (Quality.code s.quality) ||| (flagBits [s.invalid, s.suspect, s.coarse, s.clamped] <<< 3)]

/-- Arrival record. -/
def ArrivalRecord.bytes (r : ArrivalRecord) : List Byte :=
  toBytes 2 r.index ++ [byte r.cls.code, byte r.line.val,
    flagBits [r.overtook, r.acrossEpoch, r.rangeCut, r.rebased, r.seq.isSome, r.count.isSome, r.lag.isSome,
      r.marks.isSome]]
    ++ r.stamp.bytes ++ toBytes 2 r.length ++ [byte r.verdict.code, byte (r.count.getD 0)]
    ++ toBytes 4 (r.seq.getD 0).toNat ++ toBytesInt 4 (r.lag.getD 0)
    ++ [byte (r.marks.getD (0, 0)).1, byte (r.marks.getD (0, 0)).2]

/-- GAP record. -/
def GapRecord.bytes (r : GapRecord) : List Byte :=
  toBytes 2 r.index ++ [byte r.cause.code, flagBits [r.count.isSome]] ++ r.stamp.bytes
    ++ toBytes 4 r.first.toNat ++ toBytes 4 (r.count.getD 0) ++ toBytes 4 r.baseAfter.toNat

/-- UNMAPPED record. -/
def UnmappedRecord.bytes (r : UnmappedRecord) : List Byte :=
  [byte r.line.val, byte r.cause.code, flagBits [r.key.isSome], byte r.verdict.code] ++ toBytes 2 r.length
    ++ r.stamp.bytes ++ toBytes 4 ((r.key.map Key.addr).getD 0).toNat
    ++ toBytes 2 ((r.key.map Key.port).getD 0).toNat

/-- Marker record. -/
def MarkerRecord.bytes (r : MarkerRecord) : List Byte :=
  [byte r.input.val, byte (Direction.code r.dir)] ++ toBytes 4 r.count.toNat ++ r.stamp.bytes

/-- A record's bytes before the filling zeros. -/
def Record.bytes : Record → List Byte
  | .arrival r => r.bytes
  | .gap r => r.bytes
  | .unmapped r => r.bytes
  | .marker r => r.bytes

/-- A heartbeat. -/
def Heartbeat.bytes (h : Heartbeat) : List Byte :=
  h.time.bytes ++ toBytes 2 h.age ++ toBytes 2 h.queueLen ++ toBytes 2 h.quota ++ [flagByte h.lagging]
    ++ toBytes 4 h.lossTotal

/-! ## Notices (11.3) -/

/-- The bytes of a notice from its values and its repeat count. -/
def Notice.bytes (n : Notice) : List Byte :=
  let rep := toBytes 2 n.repeats
  match n.body with
  | .timescale kind old new amount label after =>
    rep ++ [byte kind.code, old, new, byte (Quality.code after)] ++ toBytesInt 8 amount
      ++ toBytes 5 (label.getD 0) ++ [flagBits [label.isSome]]
  | .quality before after suspect =>
    rep ++ [byte (Quality.code before), byte (Quality.code after), flagByte suspect]
  | .invalid cause =>
    rep ++ [if cause.isSome then 0 else 1, byte ((cause.map ReleaseCause.code).getD 0), flagBits [cause.isSome]]
  | .reference kind state pulse =>
    rep ++ [byte kind.code, byte (Quality.code state), flagBits [pulse.isSome]]
      ++ toBytesInt 4 ((pulse.map Prod.fst).getD 0) ++ ((pulse.map fun p => p.2.bytes).getD [])
  | .settings record port => rep ++ [byte record.codes.1] ++ toBytes 2 record.codes.2 ++ [byte port.val]
  | .line l old new all =>
    rep ++ [byte l.val, byte old.code, byte new.code] ++ all.toList.map fun x => byte x.code
  | .holdExpired timeout queueLen => rep ++ toBytes 2 timeout ++ toBytes 2 queueLen
  | .loss count first last total => toBytes 4 count ++ toBytes 4 total ++ first.bytes ++ last.bytes

/-! ## Items and frames (11.1) -/

/-- The item type (11.6). -/
def Item.type : Item → Nat
  | .reply _ => 1
  | .timeReply _ _ _ => 1
  | .replyMore _ => 2
  | .record (.arrival _) => 3
  | .record (.gap _) => 4
  | .record (.unmapped _) => 5
  | .record (.marker _) => 6
  | .heartbeat _ => 7
  | .notice n => 16 + n.body.kind.val

/-- The 32 bytes of an item. -/
def Item.bytes : Item → List Byte
  | .reply bs => padTo 32 bs
  | .timeReply head time tail => padTo 32 (head ++ time.bytes ++ tail)
  | .replyMore bs => padTo 32 bs
  | .record r => padTo 32 r.bytes
  | .heartbeat h => padTo 32 h.bytes
  | .notice n => padTo 32 n.bytes

/-- A link frame: header, items, CRC (11.1, R190). -/
def linkFrame (port : Fin 3) (items : List Item) : List Byte :=
  let body := [byte items.length, byte port.val] ++ toBytes 2 (12 + 32 * items.length + 4)
    ++ padTo 8 (items.map fun i => byte i.type) ++ (items.map Item.bytes).flatten
  body ++ crcBytes body

/-! ## Replies (11.5, R192) -/

/-- The further items of a reply: the data in pieces of 32 bytes. `fuel` bounds their number. -/
def moreItems : Nat → List Byte → List Item
  | 0, _ => []
  | _ + 1, [] => []
  | fuel + 1, b :: bs => .replyMore (padTo 32 (b :: bs)) :: moreItems fuel ((b :: bs).drop 32)

/-- The items of a reply to the command of a code (R192); the reply to Query Time has one, whose data begin with the
reading. -/
def replyItems (code : Byte) (r : Reply) : List Item :=
  match r.time with
  | some st => [.timeReply [code, byte r.code.code, 1, 0] st r.data]
  | none =>
    let more := moreItems 11 (r.data.drop 28)
    .reply ([code, byte r.code.code, byte (more.length + 1), 0] ++ padTo 28 r.data) :: more

/-- A time and an epoch, or zeros. Of the seconds of a deadline, which are not limited (log entry 28), the field
holds the low 40 bits (11 R192 gives no other form). -/
def deadlineBytes (d : Option Deadline) : List Byte :=
  match d with
  | none => toBytes 11 0
  | some d => toBytes 5 d.sec ++ toBytes 4 d.ns ++ [byte d.sub, d.epoch]

/-- The ten counters in the order of 05 R104. -/
def ChannelCounters.toList (c : ChannelCounters) : List Nat :=
  [c.leaderA, c.leaderB, c.followers, c.repeats, c.late, c.stale, c.gaps, c.rebases, c.damaged, c.short]

/-- The number of slots in each state: OPEN, SEEN, PAIRED, LOST, RECOVERED. -/
def slotCounts (xs : List Slot) : List Nat :=
  [xs.countP Slot.isVacant,
   xs.countP fun x => match x with | .seen _ _ => true | _ => false,
   xs.countP fun x => match x with | .paired _ _ => true | _ => false,
   xs.countP Slot.isLost,
   xs.countP fun x => match x with | .recovered => true | _ => false]

/-- The scope, address and port of an entry. -/
def Entry.keyBytes (e : Entry) : List Byte :=
  [byte e.scope.codes.1, byte e.scope.codes.2] ++ toBytes 4 e.addr.toNat ++ toBytes 2 e.port.toNat

/-- Whether a format stores a sequence offset and byte order, and whether it stores a count offset. -/
def SeqFormat.present : SeqFormat → Bool × Bool
  | .none => (false, false)
  | .packet _ _ => (true, false)
  | .message _ _ _ => (true, true)

/-- Read Channel of an OCCUPIED entry: 86 bytes. -/
def Entry.readBytes (index : Nat) (e : Entry) : List Byte :=
  [1] ++ toBytes 2 index ++ e.keyBytes ++ e.fmt.bytes
    ++ [flagBits [e.fmt.present.1, e.fmt.present.2, e.win.base.isSome, e.win.highest.isSome,
          e.win.deadline.isSome]]
    ++ toBytes 2 e.gapUs ++ e.levels.toList.map (fun l => byte l.code)
    ++ toBytes 4 (e.win.base.getD 0).toNat ++ toBytes 4 (e.win.highest.getD 0).toNat
    ++ deadlineBytes e.win.deadline ++ [byte e.win.stale] ++ (slotCounts e.win.slots).map byte
    ++ (e.cnt.toList.map (toBytes 4)).flatten

/-- Write Channel: the arguments as held. -/
def Entry.writtenBytes (index : Nat) (e : Entry) : List Byte :=
  toBytes 2 index ++ e.keyBytes ++ e.fmt.bytes ++ toBytes 2 e.gapUs

/-- The marker settings in the argument layout after the input byte. -/
def MarkerSettings.bytes (r : MarkerSettings) : List Byte :=
  [byte r.select.code, byte r.width.val] ++ toBytes 2 r.comp.toNat

/-- Read Marker Log: 82 bytes. -/
def Marker.logBytes (m : Fin 4) (x : Marker) : List Byte :=
  padTo 82 ([byte m.val] ++ x.settings.bytes ++ toBytes 4 x.count.toNat ++ toBytes 4 x.glitches
    ++ [byte x.log.length]
    ++ (x.log.map fun r => byte (Direction.code r.dir) :: toBytes 4 r.count.toNat ++ r.stamp.bytes).flatten)

/-- The line settings in the argument layout. -/
def LineSettings.bytes (l : Fin 8) (r : LineSettings) : List Byte :=
  [byte l.val, flagByte r.enable] ++ toBytes 2 r.comp.toNat ++ toBytes 2 r.quietMs

/-- The discipline settings in the argument layout. -/
def DisciplineSettings.bytes (d : DisciplineSettings) : List Byte :=
  toBytes 4 d.slewLimit ++ [byte d.a, byte d.b, byte d.window.val, byte d.lockThreshold.val, byte d.lockCount,
    byte d.reacquireCount, byte d.stepThreshold.val, byte d.holdoverLimit.val, byte d.calInterval.val,
    byte d.secpWidth.val, byte d.lockoSource.code, byte d.polarity.code]

/-- The pacing settings in the argument layout. -/
def Pacing.bytes (p : Pacing) : List Byte := [byte p.heartbeat.val] ++ toBytes 2 p.holdMs ++ [byte p.silence.val]

/-- Query Time: the 16 bytes after the reading. -/
def State.timeBytes (s : State) : List Byte :=
  toBytesInt 4 s.disc.rate ++ toBytesInt 4 s.disc.slew ++ toBytes 2 s.disc.age
    ++ [flagBits [s.disc.label.isSome]] ++ toBytes 5 ((s.disc.label.map PendingLabel.value).getD 0)

/-- The seven counters of a port in their order. -/
def PortCounters.toList (c : PortCounters) : List Nat :=
  [c.received, c.bad, c.dropped, c.refusals, c.framesSent, c.itemsSent, c.linkLosses]

/-- The part of Read Status about the port: bytes 0 to 21. -/
def State.portStatusBytes (p : Fin 3) (s : State) : List Byte :=
  let q := s.ports[p]
  [byte q.state.code, flagByte q.permit] ++ toBytes 2 q.credits ++ toBytes 2 q.queue.length
    ++ toBytes 2 q.quota ++ toBytes 2 s.quotaSum ++ [flagByte q.lagging, byte q.cause.code]
    ++ toBytes 4 q.lossTotal ++ [byte q.pacing.heartbeat.val, byte q.pacing.silence.val]
    ++ toBytes 2 q.pacing.holdMs ++ toBytes 2 q.attention.toNat

/-- Whether the clock-good count is complete (10 R183). -/
def Monitor.complete (m : Monitor) : Bool := m.good == Config.goodCycles

/-- Read Status: 341 bytes, all taken at one tick. -/
def State.statusBytes (p : Fin 3) (s : State) : List Byte :=
  s.portStatusBytes p
    ++ [byte (Quality.code s.disc.state), flagBits [s.disc.suspect, s.mon.invalid, s.mon.complete]]
    ++ (s.ports[p].counters.toList.map (toBytes 4)).flatten
    ++ s.markerPending[p].toList.map byte
    ++ (s.markers.toList.map fun x => toBytes 4 x.count.toNat ++ toBytes 4 x.glitches).flatten
    ++ (s.lines.toList.map fun x => byte x.state.code :: toBytes 4 x.frameCount ++ toBytes 4 x.damaged
          ++ toBytes 4 x.unmapped ++ toBytes 4 x.coarseCount).flatten
    ++ (s.interps.toList.map fun x => toBytes 4 x.calibrations ++ toBytes 4 x.busy
          ++ [flagBits [x.table.isSome, x.collection.isSome]]).flatten

end Sys2Proof.Machine
end

