-- ==== Sys2Proof/Machine/Readings.lean ====
section
/-! DEFINITION. What a change taken at a tick does to the readings of that tick. The corrected value is the value of
the tick, and a change of epoch, class or flag is seen by every reading at the tick it is taken (01 R4, R7, R9,
R15): the readings taken at the tick before the change are read again (log entry 6). -/

namespace Sys2Proof.Machine

/-- A capture of the tick takes the reading. -/
def Capture.reread (tick : Nat) (r : Reading) (c : Capture) : Capture :=
  if c.tick = tick then { c with reading := r } else c

/-- What an interpolator has captured at the tick. -/
def Interp.reread (tick : Nat) (r : Reading) (x : Interp) : Interp :=
  { x with conv := x.conv.map fun c => { c with cap := c.cap.reread tick r }
           coarse := x.coarse.map (Capture.reread tick r) }

/-- A stamp that is a reading of the tick. A stamp formed from an edge is never altered (01 R8). -/
def Stamp.reread (tick : Nat) (r : Reading) (st : Stamp) : Stamp :=
  if st.readAt = some tick then r.toStamp tick else st

/-- A record whose stamp is a reading: a GAP record of cause TIMEOUT (06 R127). -/
def Record.reread (tick : Nat) (r : Reading) : Record → Record
  | .gap g => .gap { g with stamp := g.stamp.reread tick r }
  | x => x

/-- A notice that carries the stamps of lost records (08 R156). -/
def Notice.reread (tick : Nat) (r : Reading) (n : Notice) : Notice :=
  match n.body with
  | .loss c first last total => { n with body := .loss c (first.reread tick r) (last.reread tick r) total }
  | _ => n

/-- An item: a heartbeat and the reply to Query Time report the current time (01 R7). -/
def Item.reread (tick : Nat) (r : Reading) : Item → Item
  | .timeReply head st tail => .timeReply head (st.reread tick r) tail
  | .heartbeat h => .heartbeat { h with time := h.time.reread tick r }
  | .record x => .record (x.reread tick r)
  | .notice n => .notice (n.reread tick r)
  | .reply bs => .reply bs
  | .replyMore bs => .replyMore bs

/-- The frame in transmission at a port; one that carries no reading of the tick stays as it is. -/
def Transmission.reread (p : Fin 3) (tick : Nat) (r : Reading) (x : Transmission) : Transmission :=
  let items := x.items.map (Item.reread tick r)
  if items = x.items then x else { items := items, frame := linkFrame p items }

/-- A command with the items of its reply. -/
def QueuedCommand.reread (tick : Nat) (r : Reading) (c : QueuedCommand) : QueuedCommand :=
  { c with reply := c.reply.map (Item.reread tick r) }

/-- What a port holds of the tick: pending notices, replies, the frame in transmission. -/
def Port.reread (p : Fin 3) (tick : Nat) (r : Reading) (q : Port) : Port :=
  { q with notices := q.notices.map (Notice.reread tick r)
           cmds := q.cmds.map (QueuedCommand.reread tick r)
           tx := q.tx.map (Transmission.reread p tick r) }

/-- What the pool holds of the tick: its LIVE entries and the records of the engine not yet offered. -/
def Pool.reread (tick : Nat) (r : Reading) (x : Pool) : Pool :=
  { x with entries := x.entries.map fun e => { e with record := e.record.reread tick r }
           fromEngine := x.fromEngine.map fun o => { o with record := o.record.reread tick r } }

/-- Every reading of this tick becomes the given one. -/
def State.rereadAs (r : Reading) (s : State) : State :=
  { s.mapInterps (Interp.reread s.tick r) with
    pool := s.pool.reread s.tick r
    ports := #v[s.ports[0].reread 0 s.tick r, s.ports[1].reread 1 s.tick r, s.ports[2].reread 2 s.tick r] }

/-- What follows a change taken at a tick: what was read at the tick is read again, and a fall of SECP is judged
again. -/
def State.reread (s : State) : State := (s.rereadAs s.reading).rejudgeSecp

end Sys2Proof.Machine
end

