-- ==== Sys2Proof/Machine/Discipline.lean ====
section
/-! DEFINITION. The discipline controller (02): what it asks of the counter, what it does at a pulse, a
missing pulse, the close of a window and a rollover, and what it does when INVALID is set. -/

namespace Sys2Proof.Machine

/-! ## Settings as numbers (02 R50, 11.6) -/

/-- The half-width W in ns: 1, 10, 100 or 1,000 µs. -/
def DisciplineSettings.windowNs (d : DisciplineSettings) : Nat := 1000 * 10 ^ d.window.val

/-- The lock threshold in ns. -/
def DisciplineSettings.lockNs (d : DisciplineSettings) : Nat :=
  match d.lockThreshold with
  | 0 => 20
  | 1 => 50
  | 2 => 100
  | 3 => 500

/-- The step threshold in ns: 1, 10, 100 or 1,000 µs (02 R31). -/
def DisciplineSettings.stepNs (d : DisciplineSettings) : Nat := 1000 * 10 ^ d.stepThreshold.val

/-- The holdover limit in seconds: 10, 100, 1,000 or 10,000. -/
def DisciplineSettings.holdoverSeconds (d : DisciplineSettings) : Nat := 10 * 10 ^ d.holdoverLimit.val

/-- The length of the calibration interval timer in core ticks, absent for OFF (03 R67). -/
def DisciplineSettings.calTicks (d : DisciplineSettings) : Option Nat :=
  match d.calInterval with
  | 0 => none
  | 1 => some 400000000
  | 2 => some 4000000000
  | 3 => some 24000000000

/-! ## What the controller asks of the counter -/

/-- New rate and slew terms, taken at this tick (01 R3). -/
def State.applyTerms (rate slew : Int) (s : State) : State :=
  (s.updDisc fun d => { d with rate := rate, slew := slew }).setIncrement (increment rate slew)

/-- Remove the exact error from the timescale and start a new epoch, with the slew cleared. A carry into the next
second is a rollover of this tick (01 R11, R14). -/
def State.correct (ex : Int) (s : State) : State :=
  let t := s.applyTerms s.disc.rate 0
  let d : Int := -ex * 2 ^ 24
  { t with
    time := { t.time.shift d with epoch := t.time.epoch + 1 }
    rolled := if t.time.shiftCarries d then t.rolled.forward else t.rolled }

/-- Replace the seconds by seconds less Q plus the label (01 R12). -/
def Timescale.relabel (q label : Nat) (t : Timescale) : Timescale :=
  if t.sec + label < q then t.put 0 0 else { t with sec := min (t.sec + label - q) Config.maxSec, excess := 0 }

/-- The amount of a label: so many seconds less the error, in 1/256 ns, saturated (01 R12, R13). -/
def labelAmount (label sec : Nat) (ex : Int) : Int :=
  clampAmount (((label : Int) - sec) * (256 * Config.nsPerSec : Nat) - ex)

/-! ## Pulses (02 R27) -/

/-- A judged pulse: its stamp, its error in whole nanoseconds and exactly, and its nominal second. -/
structure Pulse where
  stamp : Stamp
  e : Int
  ex : Int
  nominal : Nat
deriving DecidableEq, Repr

/-- Judge a pulse stamp (02 R27). -/
def judgePulse (st : Stamp) : Pulse :=
  let up : Int := if 128 ≤ st.sub then 1 else 0
  if st.ns < 500000000 then
    { stamp := st, e := st.ns + up, ex := st.ns * 256 + st.sub, nominal := st.sec }
  else
    { stamp := st, e := (st.ns : Int) - Config.nsPerSec + up,
      ex := ((st.ns : Int) - Config.nsPerSec) * 256 + st.sub, nominal := st.sec + 1 }

/-- Whether the error is beyond the step threshold (02 R31). -/
def State.beyondStep (p : Pulse) (s : State) : Bool := s.disc.settings.stepNs < p.e.natAbs

/-- Whether the error is within the lock threshold (02 R34). -/
def State.withinLock (p : Pulse) (s : State) : Bool := p.e.natAbs ≤ s.disc.settings.lockNs

/-- Whether a pulse lies less than 0.5 s after the reference instant of the current epoch (02 R28). -/
def State.isDoublePulse (st : Stamp) (s : State) : Bool :=
  match s.disc.instant with
  | none => false
  | some i =>
    i.epoch == s.time.epoch
      && unitsOf i.sec i.ns i.sub ≤ unitsOf st.sec st.ns st.sub
      && unitsOf st.sec st.ns st.sub < unitsOf i.sec i.ns i.sub + 128 * Config.nsPerSec

/-- A window around an expected second (02 R37). -/
def windowAround (sec halfNs : Nat) (epoch : BitVec 8) : RefWindow :=
  { openAt := { sec := sec - 1, ns := Config.nsPerSec - halfNs, sub := 0, epoch := epoch }
    closeAt := { sec := sec, ns := halfNs, sub := 0, epoch := epoch } }

/-- Whether a stamp lies inside a window (02 R37). -/
def RefWindow.holds (w : RefWindow) (st : Stamp) : Bool :=
  st.epoch == w.openAt.epoch
    && timeLe w.openAt.sec w.openAt.ns w.openAt.sub st.sec st.ns st.sub
    && timeLe st.sec st.ns st.sub w.closeAt.sec w.closeAt.ns w.closeAt.sub

/-- Expect the second `sec` in the window of half-width `k` times W (02 R37). -/
def Discipline.expect (sec k : Nat) (epoch : BitVec 8) (d : Discipline) : Discipline :=
  { d with expected := some { sec := sec, epoch := epoch }
           window := some (windowAround sec (k * d.settings.windowNs) epoch) }

/-- Enter SETTLING at a taken pulse, with the silence deadline 2.0 s after the reference instant
(02 R31, R34, R35, R38, R42, R45). -/
def Discipline.enterSettling (good : Nat) (i : Deadline) (d : Discipline) : Discipline :=
  { d with state := .settling, suspect := false, good := good, faults := 0, reacquired := 0, age := 0,
           instant := some i, expected := none, window := none,
           silence := some { i with sec := i.sec + 2 } }

/-- An update (02 R29). -/
def State.update (e : Int) (s : State) : State :=
  let d := s.disc
  s.applyTerms (clampInt (-200000) 200000 (d.rate - roundHalfAway e (2 ^ d.settings.a)))
    (clampInt (-(d.settings.slewLimit : Int)) d.settings.slewLimit (-roundHalfAway e (2 ^ d.settings.b)))

/-! ## What a pulse does in each state -/

/-- The pulse corrects and leads to SETTLING: a step beyond the step threshold, an update otherwise
(02 R31, R34, R35, R38, R42). `good` is the good-pulse count after an update; `reacquired` says that the
pulse completes reacquisition. Notices in the order of 02 R54. -/
def State.acquire (p : Pulse) (good : Nat) (reacquired : Bool) (s : State) : State :=
  let big := s.beyondStep p
  let t := if big then s.correct p.ex else s.update p.e
  let i : Deadline :=
    if big then { sec := p.nominal, ns := 0, sub := 0, epoch := t.time.epoch } else p.stamp.time
  let t := t.updDisc (Discipline.enterSettling (if big then 0 else good) i)
  let t := if reacquired then t.notifyAll (.reference .reacquired .settling (some (p.e, p.stamp))) else t
  let t :=
    if big then t.notifyAll (.timescale .step s.time.epoch t.time.epoch (-p.ex) none .settling) else t
  t.raiseQuality s.disc.state s.disc.suspect

/-- The pulse carries out a pending label (01 R12, 02 R45). Q is the nominal second of the pulse, also where that is
2^40 and the removal of the error is held at the last second; there the pulse instant does not read L, which is the
model's choice (DESIGN CHOICE, log entry 41). -/
def State.labelPulse (p : Pulse) (label : Nat) (s : State) : State :=
  let t := s.correct p.ex
  let t := { t with time := t.time.relabel p.nominal label }
  let t := t.updDisc fun d =>
    { d.enterSettling 1 { sec := label, ns := 0, sub := 0, epoch := t.time.epoch } with label := none }
  let t := t.notifyAll
    (.timescale .labelAtPulse s.time.epoch t.time.epoch (labelAmount label p.nominal p.ex) (some label)
      .settling)
  t.raiseQuality s.disc.state s.disc.suspect

/-- The pulse brings the good-pulse count to the lock count (02 R35, R37). -/
def State.lock (p : Pulse) (s : State) : State :=
  let t := s.update p.e
  let t := t.updDisc fun d =>
    { d with state := .locked, suspect := false, good := min (d.good + 1) 16, faults := 0,
             instant := some p.stamp.time, silence := none }
  let t := t.updDisc (Discipline.expect (p.nominal + 1) 1 t.time.epoch)
  t.raiseQuality s.disc.state s.disc.suspect

/-- A fault in SETTLING (02 R36). -/
def State.settlingFault (kind : ReferenceKind) (pulse : Option (Int × Stamp)) (s : State) : State :=
  let t := s.applyTerms s.disc.rate 0
  let t := t.updDisc fun d =>
    if d.faults = 0 then { d with faults := 1 }
    else { d with state := .freerun, faults := 0, good := 0, silence := none }
  let t := t.notifyAll (.reference kind t.disc.state pulse)
  t.raiseQuality s.disc.state s.disc.suspect

/-- A fault in LOCKED; the second without a good pulse between enters HOLDOVER with the window in force
re-formed at four times W (02 R40, R41). -/
def State.lockedFault (kind : ReferenceKind) (pulse : Option (Int × Stamp)) (s : State) : State :=
  let t := s.applyTerms s.disc.rate 0
  let t := t.updDisc fun d =>
    if d.suspect then
      { d with state := .holdover, suspect := false, reacquired := 0, age := 0,
               window := d.expected.map fun x => windowAround x.sec (4 * d.settings.windowNs) t.time.epoch }
    else { d with suspect := true }
  let t := t.notifyAll (.reference kind t.disc.state pulse)
  t.raiseQuality s.disc.state s.disc.suspect

/-- A fault in HOLDOVER (02 R42). -/
def State.holdoverFault (kind : ReferenceKind) (pulse : Option (Int × Stamp)) (s : State) : State :=
  (s.updDisc fun d => { d with reacquired := 0 }).notifyAll (.reference kind .holdover pulse)

/-- A pulse inside the window in LOCKED with no label pending (02 R38). -/
def State.lockedPulse (p : Pulse) (s : State) : State :=
  if s.beyondStep p then
    let t := s.updDisc fun d =>
      { d.expect (p.nominal + 1) 1 s.time.epoch with instant := some p.stamp.time }
    t.lockedFault .outlier (some (p.e, p.stamp))
  else if s.withinLock p then
    let t := s.update p.e
    let t := t.updDisc fun d =>
      { d.expect (p.nominal + 1) 1 t.time.epoch with suspect := false, instant := some p.stamp.time }
    t.raiseQuality s.disc.state s.disc.suspect
  else s.acquire p 0 false

/-- A pulse inside the window in HOLDOVER with no label pending (02 R42). -/
def State.holdoverPulse (p : Pulse) (s : State) : State :=
  if s.disc.settings.reacquireCount ≤ s.disc.reacquired + 1 then
    s.acquire p (if s.withinLock p then 1 else 0) true
  else
    s.updDisc fun d =>
      { d.expect (p.nominal + 1) 4 s.time.epoch with
          reacquired := d.reacquired + 1, instant := some p.stamp.time }

/-- A pulse taken with no label pending in SETTLING (02 R35). -/
def State.settlingPulse (p : Pulse) (s : State) : State :=
  if !s.beyondStep p && s.withinLock p && s.disc.settings.lockCount ≤ s.disc.good + 1 then s.lock p
  else s.acquire p (if s.withinLock p then min (s.disc.good + 1) 16 else 0) false

/-- Whether a stamp is inside the window in force. -/
def State.insideWindow (st : Stamp) (s : State) : Bool := s.disc.window.any fun w => w.holds st

/-- The controller's action on a pulse that is not set aside, by its state (02 R33, R34, R35, R38, R42). -/
def State.judge (p : Pulse) (s : State) : State :=
  match s.disc.state, s.disc.label with
  | .unset, none => s
  | .unset, some l => s.labelPulse p l.value
  | .freerun, label =>
    if s.isDoublePulse p.stamp then s
    else match label with
      | some l => s.labelPulse p l.value
      | none => s.acquire p (if s.withinLock p then 1 else 0) false
  | .settling, label =>
    if s.isDoublePulse p.stamp then s.settlingFault .doublePulse (some (p.e, p.stamp))
    else match label with
      | some l => s.labelPulse p l.value
      | none => s.settlingPulse p
  | .locked, label =>
    if s.insideWindow p.stamp then
      match label with
      | some l => s.labelPulse p l.value
      | none => s.lockedPulse p
    else s.lockedFault .outOfWindow (some (p.e, p.stamp))
  | .holdover, label =>
    if s.insideWindow p.stamp then
      match label with
      | some l => s.labelPulse p l.value
      | none => s.holdoverPulse p
    else s.holdoverFault .outOfWindow (some (p.e, p.stamp))

/-! ## Rollovers -/

/-- The slew is cleared at the fallback. The rollover that the fallback is taken at stands: where the new increment
would not have reached the second, the value stays at its start (log entry 5). -/
def State.clearSlewAtRollover (s : State) : State :=
  let t := s.applyTerms s.disc.rate 0
  if s.time.borrows (increment s.disc.rate 0) then { t with time := t.time.put s.time.sec 0, rolled := s.rolled }
  else t

/-- The label at the fallback (01 R13, 02 R46). -/
def State.fallback (label : Nat) (s : State) : State :=
  let t := s.clearSlewAtRollover
  let sec := t.time.sec
  let t :=
    { t with time := { t.time with sec := min label Config.maxSec, epoch := t.time.epoch + 1, excess := 0 } }
  let t := t.updDisc fun d =>
    { d with state := .freerun, suspect := false, good := 0, faults := 0, reacquired := 0, age := 0,
             expected := none, window := none, silence := none, label := none }
  t.notifyAll (.timescale .labelAtFallback s.time.epoch t.time.epoch (labelAmount label sec 0)
    (some label) .freerun)

/-- The holdover age at a rollover (02 R43). -/
def Discipline.advanceAge (d : Discipline) : Discipline :=
  if d.state = .holdover then
    if d.settings.holdoverSeconds ≤ d.age + 1 then
      { d with state := .freerun, age := 0, reacquired := 0, expected := none, window := none }
    else { d with age := d.age + 1 }
  else d

/-- The check of a pending label at a rollover (02 R46). -/
def State.labelCheck (s : State) : State :=
  match s.disc.label with
  | none => s
  | some l =>
    if 1 ≤ l.rollovers then s.fallback l.value
    else s.updDisc fun d => { d with label := some { l with rollovers := l.rollovers + 1 } }

/-- The effects of a rollover: SECP rises, the holdover age advances, a pending label is checked (01 R5). -/
def State.rolloverEffects (s : State) : State :=
  let t := { s with secp := true, secpRise := s.tick, secpFell := none }
  let t := (t.updDisc Discipline.advanceAge).labelCheck
  t.raiseQuality s.disc.state s.disc.suspect

/-- The rollover of this tick is taken, if the tick has one that has not been (01 R5, R14; 02 R43, R46). -/
def State.takeRollover (s : State) : State :=
  if s.running && s.rolled == .waiting then ({ s with rolled := .taken }).rolloverEffects.reread else s

/-! ## Events of the controller -/

/-- A pulse reaches the controller; one of another epoch is set aside (02 R26). -/
def State.takePulse (st : Stamp) (s : State) : State :=
  if st.epoch ≠ s.time.epoch then s else (s.judge (judgePulse st)).reread

/-- The silence deadline is reached in SETTLING (02 R36): re-armed 2.0 s later, then the fault. -/
def State.noPulse (s : State) : State :=
  match s.disc.silence with
  | none => s
  | some d =>
    if s.running && s.disc.state == .settling && d.reached s.reading then
      ((s.updDisc fun x => { x with silence := some { d with sec := d.sec + 2 } }).settlingFault
        .noPulse none).reread
    else s

/-- The close bound of the window is reached with no pulse taken (02 R39, R42): the next window is formed
around E plus one, then the fault. -/
def State.missedWindow (s : State) : State :=
  match s.disc.window, s.disc.expected with
  | some w, some x =>
    if s.running && w.closeAt.reached s.reading then
      match s.disc.state with
      | .locked =>
        ((s.updDisc (Discipline.expect (x.sec + 1) 1 s.time.epoch)).lockedFault .missedWindow none).reread
      | .holdover =>
        ((s.updDisc (Discipline.expect (x.sec + 1) 4 s.time.epoch)).holdoverFault .missedWindow none).reread
      | .unset | .freerun | .settling => s
    else s
  | _, _ => s

/-- The controller when INVALID is set (02 R49); the rate is kept. -/
def Discipline.clear (d : Discipline) : Discipline :=
  { d with state := .unset, slew := 0, suspect := false, good := 0, faults := 0, reacquired := 0, age := 0,
           instant := none, expected := none, window := none, silence := none, label := none }

/-- Enter UNSET with INVALID set while no tick is counted: the increment is formed anew from the kept rate
and a slew of 0 (01 R17, R23; 02 R49). -/
def State.enterUnset (s : State) : State :=
  { s with disc := s.disc.clear, mon := { s.mon with invalid := true },
           time := { s.time with inc := increment s.disc.rate 0, excess := 0 } }

/-! ## Meanings -/

/-- NO_PULSE. -/
def execNoPulse (s : State) : Host.Outcome State Fault Refusal := .next s.noPulse

/-- MISSED_WINDOW. -/
def execMissedWindow (s : State) : Host.Outcome State Fault Refusal := .next s.missedWindow

end Sys2Proof.Machine
end

