-- ==== Sys2Proof/Machine/Pool.lean ====
section
/-! DEFINITION. The record pool (08): taking a record, offering it, loss. -/

namespace Sys2Proof.Machine

/-- The stamp a record carries. -/
def Record.stamp : Record → Stamp
  | .arrival r => r.stamp
  | .gap r => r.stamp
  | .unmapped r => r.stamp
  | .marker r => r.stamp

/-- A record lost at a port whose queue is at or above its quota (08 R155, R156). -/
def Port.lose (st : Stamp) (p : Port) : Port :=
  let total := satInc p.lossTotal
  ({ p with lossTotal := total, lagging := true } : Port).notify (.loss 1 st st total)

/-- What an offer does at a port of its set (08 R147): `id` is the entry the record would stand in. -/
def Port.offered (id : Nat) (st : Stamp) (p : Port) : Port :=
  if p.inService then (if p.hasRoom then { p with queue := p.queue ++ [id] } else p.lose st) else p

/-- Whether a port takes an offered record. -/
def Port.takes (p : Port) : Bool := p.inService && p.hasRoom

/-- The ports that take an offer. -/
def State.takers (o : Offer) (s : State) : List (Fin 3) :=
  allPorts.filter fun p => o.ports[p] && s.ports[p].takes

/-- The pool takes a record and offers it to each port of its set, as one whole (08 R147). -/
def State.offer (o : Offer) (s : State) : State :=
  let takers := s.takers o
  let t := s.mapPorts fun p q => if o.ports[p] then q.offered s.pool.next o.record.stamp else q
  if takers = [] then t
  else
    { t with pool := { s.pool with
        entries := s.pool.entries ++ [{ id := s.pool.next, record := o.record, refs := takers.length }]
        next := s.pool.next + 1 } }

/-- Hand records of the engine to the pool. -/
def State.handFromEngine (os : List Offer) (s : State) : State :=
  { s with pool := { s.pool with fromEngine := s.pool.fromEngine ++ os } }

/-- Hand a record of the marker unit to the pool. -/
def State.handFromMarkers (o : Offer) (s : State) : State :=
  { s with pool := { s.pool with fromMarkers := s.pool.fromMarkers ++ [o] } }

/-- The pool takes the oldest record of one maker (08 R147, R148). -/
def State.takeOffer (src : RecordSource) (s : State) : State :=
  if s.running then
    match src with
    | .engine =>
      match s.pool.fromEngine with
      | [] => s
      | o :: os => ({ s with pool := { s.pool with fromEngine := os } }).offer o
    | .markers =>
      match s.pool.fromMarkers with
      | [] => s
      | o :: os => ({ s with pool := { s.pool with fromMarkers := os } }).offer o
  else s

/-- RECORD_OFFER. -/
def execRecordOffer (src : RecordSource) (s : State) : Host.Outcome State Fault Refusal :=
  .next (s.takeOffer src)

end Sys2Proof.Machine
end

