-- ==== Sys2Proof/Machine/Lines.lean ====
section
/-! DEFINITION. The line receivers (04): line states, frames in progress, stamps, hand-off. -/

namespace Sys2Proof.Machine

/-- Present the next edge to an interpolator: it is captured at this tick (03 R58, 04 R78, 07 R135). -/
def State.present (i : Input) (s : State) : State :=
  ({ s with edgeSeq := s.edgeSeq + 1 }).updInterp i fun x => { x with presented := x.presented ++ [s.edgeSeq] }

/-- The states of the eight lines. -/
def State.lineStates (s : State) : Vector LineState 8 :=
  #v[s.lines[0].state, s.lines[1].state, s.lines[2].state, s.lines[3].state, s.lines[4].state,
     s.lines[5].state, s.lines[6].state, s.lines[7].state]

/-- Move a line to a state, raising LINE at a change (04 R77). -/
def State.setLineState (l : Fin 8) (st : LineState) (s : State) : State :=
  if s.lines[l].state = st then s
  else
    let t := s.updLine l fun x => { x with state := st }
    t.notifyAll (.line l s.lines[l].state st t.lineStates)

/-- Whether a frame is open: its end has not been reached. -/
def Frame.isOpen (f : Frame) : Bool := f.ended.isNone

/-- Whether a frame can be handed off: its end has been reached and its stamp is present (04 R87). -/
def Frame.ready (f : Frame) : Bool := f.ended.isSome && f.stamp.isSome

/-- The arrival of a frame that is ready (04 R87). -/
def Frame.arrival (l : Fin 8) (f : Frame) : Option Arrival :=
  match f.ended, f.stamp with
  | some v, some st =>
    some { line := l, stamp := st, length := f.count, verdict := v, parse := f.progress.outcome f.fields }
  | _, _ => none

/-- Count a handed-off arrival at its line (04 R87, R90). -/
def Line.countArrival (a : Arrival) (x : Line) : Line :=
  { x with
    frameCount := satInc x.frameCount
    damaged := if a.verdict = .none then x.damaged else satInc x.damaged
    coarseCount := if a.stamp.coarse then satInc x.coarseCount else x.coarseCount }

/-- Hand off every frame of a line that is ready, oldest first (04 R87, R88). -/
def State.handOff (l : Fin 8) (s : State) : State :=
  let done := s.lines[l].frames.filterMap (Frame.arrival l)
  let t := s.updLine l fun x =>
    done.foldl (fun y a => y.countArrival a) { x with frames := x.frames.filter fun f => !f.ready }
  { t with arrivals := s.arrivals.set l (s.arrivals[l] ++ done) }

/-- The end of the open frame of a line, if one is open (04 R75, R78). -/
def State.endFrame (l : Fin 8) (bytes : List Byte) (early : Bool) (s : State) : State :=
  if s.lines[l].frames.any Frame.isOpen then
    let t := s.updLine l fun x =>
      { x with
        frames := x.frames.map fun f => if f.isOpen then f.endWith bytes early else f
        quiet := some (s.tick + x.settings.quietMs * Config.ticksPerMs) }
    (t.setLineState l .live).handOff l
  else s

/-- Whether a line delivers frames: block lock is held (04 R75). -/
def Line.receiving (x : Line) : Bool := x.state == .quiet || x.state == .live

/-- Block lock gained in DARK (04 R75); the search begins at the release of RSTN (04 R92). -/
def State.lockGained (l : Fin 8) (s : State) : State :=
  if s.running && !s.rstnAsserted && s.lines[l].state == .dark then
    (s.updLine l fun x => { x with lock := true }).setLineState l .quiet
  else s

/-- Block lock lost: the open frame ends TRUNCATED, then the line becomes DARK (04 R75, R78). -/
def State.lockLost (l : Fin 8) (bytes : List Byte) (s : State) : State :=
  if s.running && s.lines[l].receiving then
    ((s.endFrame l bytes true).updLine l fun x => { x with lock := false, quiet := none }).setLineState l .dark
  else s

/-- A frame as it opens, with the line's compensation latched (04 R73, R78). -/
def Frame.start (edge tick : Nat) (comp : BitVec 16) : Frame :=
  { edge := edge, captureTick := tick, comp := comp, count := 0, progress := .header, fields := [], stamp := none,
    ended := none }

/-- A start code: an open frame ends TRUNCATED, a new one opens, latches the line's compensation and
presents its edge (04 R78). No two frames of a line share a capture tick (04 R73). A write of the compensation between
this step and EDGE_CAPTURE of the edge comes too late for it: the capture of 04 R74 is read as this step (DEDUCED, log
entry 42). -/
def State.startFrame (l : Fin 8) (bytes : List Byte) (s : State) : State :=
  if s.running && s.lines[l].receiving && s.lines[l].frames.all (fun f => f.captureTick != s.tick) then
    let t := s.endFrame l bytes true
    let t := t.updLine l fun x => { x with frames := x.frames ++ [Frame.start t.edgeSeq t.tick x.settings.comp] }
    t.present (.line l)
  else s

/-- The open frame ends at its end code, or early at another control code (04 R78). -/
def State.frameEnds (l : Fin 8) (bytes : List Byte) (how : FrameEnding) (s : State) : State :=
  if s.running && s.lines[l].receiving then s.endFrame l bytes (how == .otherControl) else s

/-- The byte count reaches its limit (04 R78). -/
def State.byteLimit (l : Fin 8) (bytes : List Byte) (s : State) : State :=
  if s.running && s.lines[l].receiving then s.endFrame l bytes false else s

/-- The quiet timer expires (04 R76). -/
def State.quietExpiry (l : Fin 8) (s : State) : State :=
  if s.running && s.lines[l].state == .live && s.lines[l].quiet.any (fun t => t ≤ s.tick) then
    (s.updLine l fun x => { x with quiet := none }).setLineState l .quiet
  else s

/-- The interpolator hands over an edge of the line: the frame it belongs to takes its stamp and is handed
off if it has ended; the edge of an abandoned frame is discarded (04 R80, R87, R91). -/
def State.lineEdge (l : Fin 8) (edge : Nat) (r : Reading) (offset : Nat) (coarse : Bool) (s : State) : State :=
  (s.updLine l fun x =>
    { x with frames := x.frames.map fun f =>
        if f.edge = edge && f.stamp.isNone then
          { f with stamp := some (assembleStamp r offset f.comp.toNat coarse) } else f }).handOff l

/-- Bring a line to the state its enable gives when it has lost everything in flight: DARK if enabled,
DISABLED if not (04 R92). -/
def State.restartLine (l : Fin 8) (s : State) : State :=
  (s.updLine l fun x => { x with lock := false, quiet := none, frames := [] }).setLineState l
    (if s.lines[l].settings.enable then .dark else .disabled)

/-- A new line settings record, taken at this tick (04 R74, R75, R91). A change of enable raises LINE here, before the
SETTINGS that `State.writeLine` raises: DESIGN CHOICE, the spec gives the two no order (log entry 33). -/
def State.setLine (l : Fin 8) (rec : LineSettings) (s : State) : State :=
  let was := s.lines[l].settings.enable
  let t := s.updLine l fun x => { x with settings := rec }
  if was = rec.enable then t else t.restartLine l

/-! ## Meanings -/

/-- BLOCK_LOCK_GAINED. -/
def execBlockLockGained (l : Fin 8) (s : State) : Host.Outcome State Fault Refusal := .next (s.lockGained l)

/-- BLOCK_LOCK_LOST. -/
def execBlockLockLost (l : Fin 8) (bytes : List Byte) (s : State) : Host.Outcome State Fault Refusal :=
  .next (s.lockLost l bytes)

/-- FRAME_START. -/
def execFrameStart (l : Fin 8) (bytes : List Byte) (s : State) : Host.Outcome State Fault Refusal :=
  .next (s.startFrame l bytes)

/-- FRAME_END. -/
def execFrameEnd (l : Fin 8) (bytes : List Byte) (how : FrameEnding) (s : State) :
    Host.Outcome State Fault Refusal :=
  .next (s.frameEnds l bytes how)

/-- BYTE_COUNT_LIMIT. -/
def execByteCountLimit (l : Fin 8) (bytes : List Byte) (s : State) : Host.Outcome State Fault Refusal :=
  .next (s.byteLimit l bytes)

/-- QUIET_TIMER_EXPIRY. -/
def execQuietTimerExpiry (l : Fin 8) (s : State) : Host.Outcome State Fault Refusal := .next (s.quietExpiry l)

end Sys2Proof.Machine
end

