-- ==== Sys2Proof/Machine/Markers.lean ====
section
/-! DEFINITION. The marker unit (07): the filter, stamps, acceptance and the settings of an input. -/

namespace Sys2Proof.Machine

/-- The filter width in core ticks (07 R134). -/
def MarkerSettings.widthTicks (r : MarkerSettings) : Nat :=
  match r.width with
  | 0 => 0
  | 1 => 16
  | 2 => 64
  | 3 => 256

/-- Whether an edge select names a direction (07 R135). -/
def EdgeSelect.names : EdgeSelect → Direction → Bool
  | .off, _ => false
  | .rising, d => d == .rising
  | .falling, d => d == .falling
  | .both, _ => true

/-- The level an edge leads to. -/
def edgeLevel : Direction → Bool
  | .rising => true
  | .falling => false

/-- The ports whose marker subscription includes an input (07 R140). -/
def State.markerSubscribers (m : Fin 4) (s : State) : Vector Bool 3 :=
  portSet fun p => s.markerSubs[p].getLsbD m

/-- A count of a pending set, which saturates at 255 (07 R142). -/
def pend (n : Nat) : Nat := min (n + 1) 255

/-- The pending sets after an accepted edge: the input's count rises at every port not DOWN (07 R142). -/
def State.pendMarker (m : Fin 4) (s : State) : Vector (Vector Nat 4) 3 :=
  let up (p : Fin 3) : Vector Nat 4 :=
    if s.ports[p].state = .down then s.markerPending[p]
    else s.markerPending[p].set m (pend s.markerPending[p][m])
  #v[up 0, up 1, up 2]

/-- The marker record of an edge accepted now (07 R140). -/
def State.markerRecord (m : Fin 4) (d : Direction) (st : Stamp) (s : State) : MarkerRecord :=
  { input := m, dir := d, stamp := st, count := s.markers[m].count + 1 }

/-- An edge is accepted: count, log, pending sets, attention summaries, and its record to the pool
(07 R140, R141, R142). -/
def State.accept (m : Fin 4) (d : Direction) (st : Stamp) (s : State) : State :=
  let r := s.markerRecord m d st
  let t := s.updMarker m fun x => { x with count := r.count, log := (r :: x.log).take 4 }
  let t := { t with markerPending := s.pendMarker m }
  let t := t.mapPorts fun _ p => p.attend markerCondition
  t.handFromMarkers { record := .marker r, ports := s.markerSubscribers m }

/-- A raw edge under an edge select other than OFF, by the filter (07 R135, R136, R137). A write of the marker record
between this step and EDGE_CAPTURE of the edge comes after it (DEDUCED, log entry 42). -/
def State.filterEdge (m : Fin 4) (d : Direction) (s : State) : State :=
  let x := s.markers[m]
  let selected := x.settings.select.names d
  let t := if selected then s.present (.marker m) else s
  if edgeLevel d = x.qualified then
    match x.candidate with
    | none => t
    | some _ => t.updMarker m fun y => { y with candidate := none, glitches := satInc y.glitches }
  else if x.candidate.isSome then t
  else if x.settings.widthTicks = 0 then
    t.updMarker m fun y =>
      { y with
        qualified := edgeLevel d
        waiting := y.waiting ++
          if selected then [{ dir := d, comp := y.settings.comp, edge := s.edgeSeq, stamp := none }] else [] }
  else
    t.updMarker m fun y =>
      { y with
        candidate := some
          { dir := d, captureTick := s.tick, qualTick := s.tick + y.settings.widthTicks,
            selected := selected, comp := y.settings.comp, edge := s.edgeSeq, stamp := none } }

/-- A raw edge: the sampled level changes (07 R133). Under OFF the qualified level follows (07 R135). At most two edges
reach one input within one tick (03 R58), and the waiting list holds no more than its size (07 R133, log entry 3).
While the core is held only the pin changes. -/
def State.rawEdge (m : Fin 4) (d : Direction) (s : State) : State :=
  let x := s.markers[m]
  if x.level = edgeLevel d then s
  else if !s.running then s.updMarker m fun y => { y with level := edgeLevel d }
  else if 2 ≤ x.rawSeen ∨ Config.edgeListSize ≤ x.waiting.length then s
  else
    let t := s.updMarker m fun y => { y with level := edgeLevel d, rawSeen := y.rawSeen + 1 }
    if x.settings.select = .off then t.updMarker m fun y => { y with qualified := edgeLevel d }
    else t.filterEdge m d

/-- Whether a candidate can be qualified: its tick has come, and a selected one holds its stamp (07 R136). -/
def Candidate.due (tick : Nat) (c : Candidate) : Bool := c.qualTick ≤ tick && (!c.selected || c.stamp.isSome)

/-- The candidate is qualified at its qualification tick, and accepted if it is selected (07 R136). -/
def State.qualify (m : Fin 4) (s : State) : State :=
  match s.markers[m].candidate with
  | none => s
  | some c =>
    if s.running && c.due s.tick then
      let t := s.updMarker m fun y => { y with candidate := none, qualified := edgeLevel c.dir }
      match c.selected, c.stamp with
      | true, some st => t.accept m c.dir st
      | _, _ => t
    else s

/-- Accept the front of the waiting list once it has its stamp (07 R138). -/
def State.acceptFront (m : Fin 4) (s : State) : State :=
  match s.markers[m].waiting with
  | [] => s
  | w :: ws =>
    match w.stamp with
    | none => s
    | some st => (s.updMarker m fun y => { y with waiting := ws }).accept m w.dir st

/-- The interpolator hands over an edge of the input: the candidate or waiting entry it belongs to takes its
stamp, any other hand-over is discarded; a waiting entry is accepted at this tick (07 R137, R138, R139). -/
def State.markerEdge (m : Fin 4) (edge : Nat) (r : Reading) (offset : Nat) (coarse : Bool) (s : State) : State :=
  (s.updMarker m fun y =>
    { y with
      candidate := y.candidate.map fun c =>
        if c.edge = edge && c.selected && c.stamp.isNone then
          { c with stamp := some (assembleStamp r offset c.comp.toNat coarse) } else c
      waiting := y.waiting.map fun w =>
        if w.edge = edge && w.stamp.isNone then
          { w with stamp := some (assembleStamp r offset w.comp.toNat coarse) } else w }).acceptFront m

/-- A new marker settings record, taken at this tick: a change of edge select or width discards a candidate
and takes the sampled level of the tick (07 R139). That level is the pin's after the raw edges of the tick taken so
far: DESIGN CHOICE (log entry 34). -/
def State.setMarker (m : Fin 4) (rec : MarkerSettings) (s : State) : State :=
  s.updMarker m fun y =>
    if y.settings.select = rec.select ∧ y.settings.width = rec.width then { y with settings := rec }
    else { y with settings := rec, candidate := none, qualified := y.level }

/-- MARKER_QUALIFICATION. -/
def execMarkerQualification (m : Fin 4) (s : State) : Host.Outcome State Fault Refusal := .next (s.qualify m)

end Sys2Proof.Machine
end

