-- ==== Sys2Proof/Machine/Interpolators.lean ====
section
/-! DEFINITION. The interpolator bank (03): captures, conversions, coarse edges, calibration. -/

namespace Sys2Proof.Machine

/-- What the converter is doing (03 R57). -/
def Interp.converter (x : Interp) : ConverterState :=
  if x.conv.isSome then .converting else if x.sample.isSome then .sampling else .idle

/-- The sum of the counts of the bins below a code (03 R61). -/
def sumBelow (t : CalTable) (k : Nat) : Nat := (t.toList.take k).sum

/-- The fine offset of a code (03 R61): 5 × (2 × C_k + w[k]) / 1,024 rounded half up, at most 639. -/
def fineOffset (t : CalTable) (k : Fin 32) : Nat :=
  min ((5 * (2 * sumBelow t k.val + t[k]) + 512) / 1024) 639

/-- An interpolator hands an edge to its consumer (03 R56, R59). -/
def State.handEdge (i : Input) (c : Capture) (offset : Nat) (coarse : Bool) (s : State) : State :=
  match i with
  | .line l => s.lineEdge l c.edge c.reading offset coarse
  | .marker m => s.markerEdge m c.edge c.reading offset coarse
  | .ref => s.takePulse (assembleStamp c.reading offset 0 coarse)

/-- An edge captured now: it starts a conversion with the active table, abandoning a sample, or, where the
converter is CONVERTING or its end tick is this tick, it waits as a coarse edge (03 R58, R60, R64). -/
def Interp.capture (tick : Nat) (r : Reading) (edge : Nat) (x : Interp) : Interp :=
  let c : Capture := { edge := edge, tick := tick, reading := r }
  let x := { x with captured := x.captured + 1, sample := none }
  if x.conv.isSome ∨ x.lastEnd = some tick then
    { x with coarse := x.coarse ++ [c], busy := satInc x.busy }
  else { x with conv := some { cap := c, table := x.table } }

/-- The end of a conversion at its end tick (03 R59). -/
def State.endConversion (i : Input) (code : Fin 32) (s : State) : State :=
  match (s.interp i).conv with
  | none => s
  | some c =>
    if s.running && c.cap.tick + Config.handoverTicks ≤ s.tick then
      let t := s.updInterp i fun x => { x with conv := none, lastEnd := some s.tick }
      match c.table with
      | some w => t.handEdge i c.cap (fineOffset w code) false
      | none => t.handEdge i c.cap Config.coarseOffset true
    else s

/-- Whether a conversion in flight was captured no later than a coarse edge, and so is handed over before it
(03 R60). -/
def Interp.convBefore (x : Interp) (c : Capture) : Bool := x.conv.any fun v => v.cap.tick ≤ c.tick

/-- The oldest coarse edge is handed over 7 ticks after its capture (03 R60). -/
def State.handCoarse (i : Input) (s : State) : State :=
  let x := s.interp i
  match x.coarse with
  | [] => s
  | c :: cs =>
    if s.running && c.tick + Config.handoverTicks ≤ s.tick && !x.convBefore c then
      (s.updInterp i fun y => { y with coarse := cs }).handEdge i c Config.coarseOffset true
    else s

/-! ## Edges that are due (log entry 2) -/

/-- A conversion that has come to its end tick ends with a code that nothing is known of (log entry 9). -/
def State.dueConversion (i : Input) (s : State) : State :=
  if (s.interp i).conv.any fun c => c.cap.tick + Config.handoverTicks ≤ s.tick then
    ({ s with free := s.free + 1 }).endConversion i (Config.freeCode s.free)
  else s

/-- What an interpolator owes its consumer at this tick: its conversion, then its coarse edges (03 R58, R60). -/
def State.dueEdges (i : Input) (s : State) : State :=
  times (State.handCoarse i) (s.interp i).coarse.length (s.dueConversion i)

/-- Whether an edge of an input is there to be captured. An edge of a line or marker input is one that was presented;
the reference input presents its own. At most two edges of an input have one capture tick (03 R58). -/
def State.canCapture (i : Input) (s : State) : Bool :=
  s.running && (s.interp i).captured < 2 && (i == .ref || !(s.interp i).presented.isEmpty)

/-- Where the coarse edges waiting are as many as the list holds, those that are due at this tick are handed over
before another edge is captured (03 R57, R60; log entry 2). -/
def State.makeRoom (i : Input) (s : State) : State :=
  if (s.interp i).coarse.length < Config.edgeListSize then s else s.dueEdges i

/-- An external edge is captured (03 R58). -/
def State.captureEdge (i : Input) (s : State) : State :=
  if s.canCapture i && ((s.makeRoom i).interp i).coarse.length < Config.edgeListSize then
    let t := s.makeRoom i
    match i, (t.interp i).presented with
    | .ref, _ => t.updInterp i (Interp.capture t.tick t.reading 0)
    | _, [] => s
    | _, e :: es => t.updInterp i fun y => ({ y with presented := es }).capture t.tick t.reading e
  else s

/-- A raw edge of a marker input. Where the edges waiting are as many as the list holds, those whose stamps are due at
this tick are accepted before it (07 R133, R136; log entry 2). -/
def State.markerRaw (m : Fin 4) (d : Direction) (s : State) : State :=
  if s.running && s.markers[m].level != edgeLevel d && s.markers[m].rawSeen < 2
      && Config.edgeListSize ≤ s.markers[m].waiting.length then
    (s.dueEdges (.marker m)).rawEdge m d
  else s.rawEdge m d

/-! ## Calibration -/

/-- An internal edge starts a sample on an IDLE interpolator that holds a collection (03 R64). -/
def State.internalEdge (i : Input) (s : State) : State :=
  let x := s.interp i
  if s.running && x.converter == .idle && x.collection.isSome then
    s.updInterp i fun y => { y with sample := some (s.tick + Config.handoverTicks) }
  else s

/-- Count a sample of a code (03 R65). -/
def Collection.count (k : Fin 32) (c : Collection) : Collection :=
  { bins := c.bins.set k (c.bins[k] + 1), samples := c.samples + 1 }

/-- The end of a sample at its end tick: its code is counted, and a complete collection becomes the active
table (03 R64, R65, R66). -/
def State.endSample (i : Input) (code : Fin 32) (s : State) : State :=
  match (s.interp i).sample with
  | none => s
  | some t =>
    if s.running && t ≤ s.tick then
      s.updInterp i fun x =>
        match x.collection with
        | none => { x with sample := none }
        | some c =>
          if Config.tableSum ≤ (c.count code).samples then
            { x with sample := none, table := some (c.count code).bins, collection := none,
                     calibrations := satInc x.calibrations }
          else { x with sample := none, collection := some (c.count code) }
    else s

/-- An empty collection (03 R65). -/
def Collection.start : Collection := { bins := Vector.replicate 32 0, samples := 0 }

/-- Start a collection where none is present (03 R65). -/
def Interp.startCollection (x : Interp) : Interp :=
  if x.collection.isSome then x else { x with collection := some .start }

/-- The calibration interval timer expires: collections start, and the timer restarts (03 R67). -/
def State.calibrationExpiry (s : State) : State :=
  if s.running && s.calExpiry.any (fun t => t ≤ s.tick) then
    let t := s.mapInterps Interp.startCollection
    { t with calExpiry := s.disc.settings.calTicks.map fun n => s.tick + n }
  else s

/-! ## Meanings -/

/-- MARKER_RAW_EDGE. -/
def execMarkerRawEdge (m : Fin 4) (d : Direction) (s : State) : Host.Outcome State Fault Refusal :=
  .next (s.markerRaw m d)

/-- EDGE_CAPTURE. -/
def execEdgeCapture (i : Input) (s : State) : Host.Outcome State Fault Refusal := .next (s.captureEdge i)

/-- CONVERSION_END. -/
def execConversionEnd (i : Input) (code : Fin 32) (s : State) : Host.Outcome State Fault Refusal :=
  .next (s.endConversion i code)

/-- COARSE_EDGE_HANDOVER. -/
def execCoarseEdgeHandover (i : Input) (s : State) : Host.Outcome State Fault Refusal := .next (s.handCoarse i)

/-- INTERNAL_EDGE. -/
def execInternalEdge (i : Input) (s : State) : Host.Outcome State Fault Refusal := .next (s.internalEdge i)

/-- SAMPLE_END. -/
def execSampleEnd (i : Input) (code : Fin 32) (s : State) : Host.Outcome State Fault Refusal :=
  .next (s.endSample i code)

/-- CALIBRATION_TIMER_EXPIRY. -/
def execCalibrationTimerExpiry (s : State) : Host.Outcome State Fault Refusal := .next s.calibrationExpiry

end Sys2Proof.Machine
end

