-- ==== Sys2Proof/Machine/Ports.lean ====
section
/-! DEFINITION. The drop ports (09): states, the link, timers, command intake, replies, transmission. -/

namespace Sys2Proof.Machine

/-! ## Leaving service (09 R166, R169) -/

/-- What every departure from service clears at the port itself; its queue is released with it. -/
def Port.clearService (q : Port) : Port :=
  { q with credits := 0, holdTimer := none, queue := [], notices := [], hbTimer := none, hbPending := false }

/-- Enter DETACHED with a cause; the queue is released (09 R169, 08 R151). -/
def State.detachPort (p : Fin 3) (cause : DetachCause) (s : State) : State :=
  (s.releaseIds s.ports[p].queue).updPort p fun q =>
    { q.clearService with state := .detached, cause := cause }

/-- Whether a queued command has been handed to a block other than the port (09 R166, R181). -/
def QueuedCommand.handedOn (c : QueuedCommand) : Bool :=
  c.cond == .handed && (c.parts.isSome || (parseCommand c.bytes).any fun k => !k.ownedByPort)

/-- Enter DOWN (09 R166): everything in flight at the port is discarded, a command handed to another block
stays to be taken by it. -/
def State.downPort (p : Fin 3) (s : State) : State :=
  let t := (s.releaseIds s.ports[p].queue).updPort p fun q =>
    { q.clearService with
        state := .down, cmds := [], orphans := q.orphans ++ q.cmds.filter QueuedCommand.handedOn, tx := none,
        attention := 0, linkLost := false }
  { t with markerPending := t.markerPending.set p (Vector.replicate 4 0) }

/-- The link is established (09 R166); while RSTN is asserted the ports stay DOWN (10 R189). -/
def State.linkUp (p : Fin 3) (s : State) : State :=
  if s.running && !s.rstnAsserted && s.ports[p].state == .down then
    s.updPort p fun q => { q with state := .detached, linkLost := false }
  else s

/-- The link is lost (09 R166). A loss while the core is frozen is taken after the release (10 R185). -/
def State.linkLoss (p : Fin 3) (s : State) : State :=
  if s.ports[p].state = .down then s
  else if s.running then
    (s.downPort p).updPort p fun q =>
      { q with cause := .link, counters := { q.counters with linkLosses := satInc q.counters.linkLosses } }
  else s.updPort p fun q => { q with linkLost := true }

/-! ## Timers -/

/-- The heartbeat timer expires (08 R162). -/
def State.heartbeatExpiry (p : Fin 3) (s : State) : State :=
  if s.running && s.ports[p].hbTimer.any (fun t => t ≤ s.tick) then
    s.updPort p fun q =>
      { q with hbPending := true, hbTimer := q.pacing.heartbeatTicks.map fun n => s.tick + n }
  else s

/-- The hold timer expires: STREAMING again, and HOLD_EXPIRED (09 R168). -/
def State.holdExpiry (p : Fin 3) (s : State) : State :=
  if s.running && s.ports[p].state == .held && s.ports[p].holdTimer.any (fun t => t ≤ s.tick) then
    s.updPort p fun q =>
      ({ q with state := .streaming, holdTimer := none } : Port).notify
        (.holdExpired q.pacing.holdMs q.queue.length)
  else s

/-- The silence timer expires (09 R170). -/
def State.silenceExpiry (p : Fin 3) (s : State) : State :=
  if s.running && s.ports[p].state == .streaming && s.ports[p].silenceTimer.any (fun t => t ≤ s.tick) then
    s.detachPort p .silence
  else s

/-! ## Command intake (09 R174, R175; 11 R191) -/

/-- The greatest length of a command queue. -/
def commandQueueSize : Nat := 4

/-- A valid frame restarts the silence timer while the silence condition holds (09 R170). -/
def Port.heard (tick : Nat) (q : Port) : Port :=
  if q.silent then { q with silenceTimer := some (tick + q.pacing.silenceTicks) } else q

/-- A command frame is received whole (09 R174). -/
def State.receiveFrame (p : Fin 3) (bytes : List Byte) (s : State) : State :=
  if s.running && s.ports[p].state != .down then
    s.updPort p fun q =>
      if bytes.length < 6 ∨ crcGood bytes = false then
        { q with counters := { q.counters with bad := satInc q.counters.bad } }
      else if commandQueueSize ≤ q.cmds.length then
        { q.heard s.tick with counters := { q.counters with dropped := satInc q.counters.dropped } }
      else
        { q.heard s.tick with
            counters := { q.counters with received := satInc q.counters.received }
            cmds := q.cmds ++ [{ bytes := bytes.take (bytes.length - 4), cond := .waiting, parts := none,
                                 reply := [] }] }
  else s

/-- The code byte of a queued command. -/
def QueuedCommand.code (c : QueuedCommand) : Byte := c.bytes.headD 0

/-- A command answered with a reply. -/
def QueuedCommand.answered (r : Reply) (c : QueuedCommand) : QueuedCommand :=
  { c with cond := .answered, parts := none, reply := replyItems c.code r }

/-- Change the first command of a queue in a condition. -/
def updFirst (k : CommandCondition) (f : QueuedCommand → QueuedCommand) : List QueuedCommand → List QueuedCommand
  | [] => []
  | c :: cs => if c.cond = k then f c :: cs else c :: updFirst k f cs

/-- The oldest command of a queue in a condition. -/
def findCond (k : CommandCondition) (cs : List QueuedCommand) : Option QueuedCommand := cs.find? fun c => c.cond == k

/-- A command of the port, in the order they were sent: one left over from before the port went DOWN first,
then the command HANDED (09 R166, R175; log entry 10). -/
def Port.takeable (q : Port) : Option QueuedCommand :=
  match q.orphans with
  | c :: _ => some c
  | [] => findCond .handed q.cmds

/-- The oldest WAITING command is checked for form, then for the permit, and handed over (09 R175, R177;
11 R191). -/
def State.handOver (p : Fin 3) (s : State) : State :=
  if s.running && s.ports[p].state != .down && (findCond .handed s.ports[p].cmds).isNone then
    match findCond .waiting s.ports[p].cmds with
    | none => s
    | some c =>
      match parseCommand c.bytes with
      | none => s.updPort p fun q => { q with cmds := updFirst .waiting (·.answered (.bare .malformed)) q.cmds }
      | some k =>
        if k.needsPermit && !s.ports[p].permit then
          s.updPort p fun q =>
            { q with
              counters := { q.counters with refusals := satInc q.counters.refusals }
              cmds := updFirst .waiting (·.answered (.bare .refusedPermit)) q.cmds }
        else s.updPort p fun q => { q with cmds := updFirst .waiting (fun c => { c with cond := .handed }) q.cmds }
  else s

/-- The reply to the command taken: ANSWERED in the queue, or none for a command whose port went DOWN
(09 R166, R175). No command stands TAKEN between two steps: taking it and forming its reply are one step, which is
DESIGN CHOICE (log entry 35). -/
def Port.answer (r : Reply) (q : Port) : Port :=
  match q.orphans with
  | _ :: cs => { q with orphans := cs }
  | [] => { q with cmds := updFirst .handed (·.answered r) q.cmds }

/-- The owner takes the port's command if it is one that `f` knows: it acts, and the reply is formed
(09 R175). -/
def State.takeCommand (p : Fin 3) (f : Command → Option (State → State × Reply)) (s : State) : State :=
  if s.running then
    match (s.ports[p].takeable.bind fun c => if c.parts.isNone then parseCommand c.bytes else none).bind f with
    | none => s
    | some act => ((act s).1).updPort p (Port.answer (act s).2)
  else s

/-! ## Transmission (09 R172) -/

/-- The heartbeat's values at the tick it is taken (08 R163). -/
def State.heartbeatOf (p : Fin 3) (s : State) : Heartbeat :=
  let q := s.ports[p]
  { time := s.now, age := s.disc.age, queueLen := q.queue.length, quota := q.quota, lagging := q.lagging,
    lossTotal := q.lossTotal }

/-- The next item of the answered commands and the commands after it is taken: a command leaves the queue
with the last item of its reply (09 R175). -/
def takeReply : List QueuedCommand → Option (Item × List QueuedCommand)
  | [] => none
  | c :: cs =>
    if c.cond = .answered then
      match c.reply with
      | [] => none
      | [i] => some (i, cs)
      | i :: is => some (i, { c with reply := is } :: cs)
    else none

/-- The record of a LIVE entry. -/
def findRecord (id : Nat) : List PoolEntry → Option Record
  | [] => none
  | e :: es => if e.id = id then some e.record else findRecord id es

/-- Take one eligible item into the frame: replies first, then, in STREAMING and against a credit, notices,
the heartbeat, records (09 R171, R172; 08 R150, R159, R163). -/
def State.takeItem (p : Fin 3) (s : State) : Option (Item × State) :=
  let q := s.ports[p]
  match takeReply q.cmds with
  | some (i, cs) => some (i, s.updPort p fun q => { q with cmds := cs })
  | none =>
    if q.state = .streaming ∧ 0 < q.credits then
      match q.notices with
      | n :: ns => some (.notice n, s.updPort p fun q => { q with notices := ns, credits := q.credits - 1 })
      | [] =>
        if q.hbPending then
          some (.heartbeat (s.heartbeatOf p),
            s.updPort p fun q => { q with hbPending := false, credits := q.credits - 1 })
        else
          match q.queue with
          | [] => none
          | id :: ids =>
            (findRecord id s.pool.entries).map fun r =>
              (.record r, (s.releaseIds [id]).updPort p fun q => { q with queue := ids, credits := q.credits - 1 })
    else none

/-- Take eligible items, at most so many. -/
def State.takeItems (p : Fin 3) : Nat → State → List Item × State
  | 0, s => ([], s)
  | n + 1, s =>
    match s.takeItem p with
    | none => ([], s)
    | some (i, t) => let r := t.takeItems p n; (i :: r.1, r.2)

/-- An IDLE transmitter with an eligible item starts a link frame (09 R172, 11 R190). -/
def State.startLinkFrame (p : Fin 3) (s : State) : State :=
  if s.running && s.ports[p].state != .down && s.ports[p].tx.isNone then
    let r := s.takeItems p 8
    if r.1 = [] then s
    else r.2.updPort p fun q => { q with tx := some { items := r.1, frame := linkFrame p r.1 } }
  else s

/-- A link frame's transmission completes (09 R172). -/
def State.endLinkFrame (p : Fin 3) (s : State) : State :=
  match s.ports[p].tx with
  | none => s
  | some t =>
    if s.running then
      s.updPort p fun q =>
        { q with tx := none, counters := { q.counters with
            framesSent := satInc q.counters.framesSent
            itemsSent := satAdd q.counters.itemsSent t.items.length } }
    else s

/-! ## Meanings -/

/-- LINK_UP. -/
def execLinkUp (p : Fin 3) (s : State) : Host.Outcome State Fault Refusal := .next (s.linkUp p)

/-- LINK_LOSS. -/
def execLinkLoss (p : Fin 3) (s : State) : Host.Outcome State Fault Refusal := .next (s.linkLoss p)

/-- HEARTBEAT_TIMER_EXPIRY. -/
def execHeartbeatTimerExpiry (p : Fin 3) (s : State) : Host.Outcome State Fault Refusal :=
  .next (s.heartbeatExpiry p)

/-- HOLD_TIMER_EXPIRY. -/
def execHoldTimerExpiry (p : Fin 3) (s : State) : Host.Outcome State Fault Refusal := .next (s.holdExpiry p)

/-- SILENCE_TIMER_EXPIRY. -/
def execSilenceTimerExpiry (p : Fin 3) (s : State) : Host.Outcome State Fault Refusal := .next (s.silenceExpiry p)

/-- COMMAND_FRAME_RECEIVED. -/
def execCommandFrameReceived (p : Fin 3) (bytes : List Byte) (s : State) : Host.Outcome State Fault Refusal :=
  .next (s.receiveFrame p bytes)

/-- COMMAND_HANDOVER. -/
def execCommandHandover (p : Fin 3) (s : State) : Host.Outcome State Fault Refusal := .next (s.handOver p)

/-- LINK_FRAME_START. -/
def execLinkFrameStart (p : Fin 3) (s : State) : Host.Outcome State Fault Refusal := .next (s.startLinkFrame p)

/-- LINK_FRAME_END. -/
def execLinkFrameEnd (p : Fin 3) (s : State) : Host.Outcome State Fault Refusal := .next (s.endLinkFrame p)

end Sys2Proof.Machine
end

