-- ==== Sys2Proof/Machine/Engine.lean ====
section
/-! DEFINITION. The arbitration engine (05): lookup, offers by level, arrivals and gap deadlines taken. -/

namespace Sys2Proof.Machine

/-- Whether a level admits a record of a channel (05 R100). -/
def Level.admits : Level → Record → Bool
  | .none, _ => false
  | .all, _ => true
  | .leaders, .gap _ => true
  | .leaders, .unmapped _ => true
  | .leaders, .marker _ => true
  | .leaders, .arrival r =>
    match r.cls with
    | .leader | .late | .unsequenced => true
    | .follower => r.overtook
    | .repeated | .stale | .damaged | .short => false

/-- The pair of a line (04, 05 R94). -/
def pairOf (l : Fin 8) : Fin 4 := ⟨l.val / 2, by omega⟩

/-- The scope the engine gives an arrival from a line (05 R94). -/
def State.scopeOf (l : Fin 8) (s : State) : Scope :=
  match s.pairModes[pairOf l] with
  | .paired => .pair (pairOf l)
  | .independent => .line l

/-- Whether an entry holds a key (05 R93). -/
def Entry.hasKey (sc : Scope) (addr : BitVec 32) (port : BitVec 16) (e : Entry) : Bool :=
  e.scope == sc && e.addr == addr && e.port == port

/-- The entry that holds a key, with its index (05 R94). -/
def State.findKey (sc : Scope) (k : Key) (s : State) : Option (Nat × Entry) :=
  s.channels.find? fun q => q.2.hasKey sc k.addr k.port

/-- The offers of some records by the levels of an entry; a record that no level admits is offered to no
port (05 R100). -/
def Entry.offers (e : Entry) (rs : List Record) : List Offer :=
  (rs.map fun r => { record := r, ports := portSet fun p => (e.levels[p]).admits r : Offer }).filter
    fun o => allPorts.any fun p => o.ports[p]

/-- Write back an entry after a take or an expiry and hand its records to the pool (06 R131). -/
def State.commitEntry (i : Nat) (r : Entry × List Record) (s : State) : State :=
  ({ s with channels := tableSet i r.1 s.channels }).handFromEngine (r.1.offers r.2)

/-- An unmapped arrival (05 R95). -/
def State.takeUnmapped (a : Arrival) (key : Option Key) (cause : UnmappedCause) (s : State) : State :=
  let r : Record := .unmapped
    { line := a.line, stamp := a.stamp, length := a.length, verdict := a.verdict, key := key, cause := cause }
  let t := s.updLine a.line fun x => { x with unmapped := satInc x.unmapped }
  let o : Offer := { record := r, ports := portSet fun p => s.unmapped[p].getLsbD a.line }
  if allPorts.any fun p => o.ports[p] then t.handFromEngine [o] else t

/-- Whether the gap deadline was armed at this tick and is reached at it: its expiry is the next event that the engine
takes for the entry (06 R122). Which commands are events of an entry is DEDUCED (log entry 39). -/
def Entry.isOverdue (s : State) (e : Entry) : Bool :=
  e.win.armedAt == some s.tick && e.win.deadline.any fun d => d.reached s.reading

/-- The entry after that expiry, where there is one, with its records. -/
def Entry.settled (i : Nat) (s : State) (e : Entry) : Entry × List Record :=
  if e.isOverdue s then e.expire i s.now else (e, [])

/-- Before an event that concerns some entries, the expiries that are the next events of those entries (06 R122). -/
def State.overdue (concerns : Nat → Bool) (s : State) : State :=
  sweep (fun q t => if concerns q.1 && q.2.isOverdue s then t.commitEntry q.1 (q.2.settled q.1 s) else t) s.channels s

/-- The engine takes one arrival (05 R94). -/
def State.engineTake (a : Arrival) (s : State) : State :=
  match a.parse with
  | .unkeyed c => s.takeUnmapped a none (.unkeyed c)
  | .keyed k len fields =>
    match s.findKey (s.scopeOf a.line) k with
    | none => s.takeUnmapped a (some k) .noChannel
    | some (i, e) =>
      let due := e.settled i s
      let take := due.1.take s.tick i a len fields
      s.commitEntry i (take.1, due.2 ++ take.2)

/-- The engine takes the oldest arrival handed off by a line (04 R87, R88). -/
def State.arrivalTake (l : Fin 8) (s : State) : State :=
  if s.running then
    match s.arrivals[l] with
    | [] => s
    | a :: as => ({ s with arrivals := s.arrivals.set l as }).engineTake a
  else s

/-- The engine takes the expiry of an entry's gap deadline once it is reached (06 R124). -/
def State.gapExpiry (i : Nat) (s : State) : State :=
  match tableGet i s.channels with
  | none => s
  | some e =>
    if s.running && e.win.deadline.any (fun d => d.reached s.reading) then s.commitEntry i (e.expire i s.now)
    else s

/-! ## Table commands -/

/-- Whether the mode of a scope's pair is the one the scope needs (05 R96). -/
def State.scopeFits (sc : Scope) (s : State) : Bool :=
  match sc with
  | .pair p => s.pairModes[p] == .paired
  | .line l => s.pairModes[pairOf l] == .independent

/-- The levels after a write: kept when the index held the same key, NONE otherwise (05 R97). -/
def keptLevels (old : Option Entry) (sc : Scope) (addr : BitVec 32) (port : BitVec 16) : Vector Level 3 :=
  match old with
  | none => Vector.replicate 3 .none
  | some e => if e.hasKey sc addr port then e.levels else Vector.replicate 3 .none

/-- Write Channel (05 R96, R97). An expiry that is the entry's next event comes before the write (06 R122). -/
def State.writeChannel (p : Fin 3) (index kind number : Nat) (addr : BitVec 32) (port : BitVec 16)
    (mode offset order countOffset gapUs : Nat) (s : State) : State × Reply :=
  match Scope.ofCodes kind number, SeqFormat.ofCodes mode offset order countOffset with
  | some sc, some f =>
    if h : index < 512 then
      if !s.scopeFits sc || s.channels.any (fun q => q.1 != index && q.2.hasKey sc addr port) then
        (s, .bare .refusedConflict)
      else
        let e : Entry :=
          { scope := sc, addr := addr, port := port, fmt := f, gapUs := clampNat 1 10000 gapUs,
            levels := keptLevels (tableGet index s.channels) sc addr port, win := .empty, cnt := .zero }
        let t := s.overdue (· = index)
        (({ t with channels := tableSet index e t.channels }).notifyAll (.settings (.channel ⟨index, h⟩) p),
         .carriedOut (e.gapUs != gapUs) (e.writtenBytes index))
    else (s, .bare .malformed)
  | _, _ => (s, .bare .malformed)

/-- Remove Channel (05 R98), after an expiry that is the entry's next event (06 R122). -/
def State.removeChannel (p : Fin 3) (index : Nat) (s : State) : State × Reply :=
  if h : index < 512 then
    let t := s.overdue (· = index)
    (({ t with channels := tableErase index t.channels }).notifyAll (.settings (.channel ⟨index, h⟩) p),
     .bare .done)
  else (s, .bare .malformed)

/-- Whether an entry's scope would be left without a home by a mode of a pair (05 R99). -/
def orphanedBy (p : Fin 4) (m : PairMode) (e : Entry) : Bool :=
  match m, e.scope with
  | .independent, .pair q => q == p
  | .paired, .line l => pairOf l == p
  | .independent, .line _ => false
  | .paired, .pair _ => false

/-- Set Pair Mode (05 R99). -/
def State.setPairMode (p : Fin 3) (pair mode : Nat) (s : State) : State × Reply :=
  match PairMode.ofCode mode with
  | none => (s, .bare .malformed)
  | some m =>
    if h : pair < 4 then
      if s.channels.any fun q => orphanedBy ⟨pair, h⟩ m q.2 then (s, .bare .refusedConflict)
      else
        (({ s with pairModes := s.pairModes.set pair m }).notifyAll (.settings (.pairMode ⟨pair, h⟩) p),
         .bare .done)
    else (s, .bare .malformed)

/-- The level after Subscribe (05 R101). -/
def subscribed (l : Level) (_ : Level) : Level := l

/-- The level after Unsubscribe (05 R101). -/
def unsubscribed : Level → Level → Level
  | .all, .all => .leaders
  | .all, old => old
  | .leaders, _ => .none
  | .none, old => old

/-- Subscribe and Unsubscribe over a range of indexes (05 R101), after the expiries that are the next events of its
entries (06 R122). -/
def State.setLevels (p : Fin 3) (first last level : Nat) (f : Level → Level → Level) (s : State) : State × Reply :=
  match Level.ofCode level with
  | none => (s, .bare .malformed)
  | some l =>
    if 511 < last ∨ last < first then (s, .bare .malformed)
    else
      let inRange (i : Nat) : Bool := first ≤ i && i ≤ last
      let t := s.overdue inRange
      ({ t with channels := tableMap (fun i e =>
          if inRange i then { e with levels := e.levels.set p (f l e.levels[p]) } else e) t.channels },
       .carriedOut false (toBytes 2 (s.channels.countP fun q => inRange q.1)))

/-- Subscribe Unmapped (05 R102). -/
def State.setUnmapped (p : Fin 3) (set : BitVec 8) (s : State) : State × Reply :=
  ({ s with unmapped := s.unmapped.set p set }, .bare .done)

/-- Read Channel (05 R105), after an expiry that is the entry's next event (06 R122). -/
def State.readChannel (index : Nat) (s : State) : State × Reply :=
  if 511 < index then (s, .bare .malformed)
  else
    let t := s.overdue (· = index)
    match tableGet index t.channels with
    | none => (t, .carriedOut false [0])
    | some e => (t, .carriedOut false (e.readBytes index))

/-- Empty every window, with counters 0 and levels NONE (05 R107, 10 R189). -/
def State.emptyWindows (s : State) : State :=
  { s with
    channels := tableMap (fun _ e =>
      { e with levels := Vector.replicate 3 .none, win := .empty, cnt := .zero }) s.channels
    unmapped := Vector.replicate 3 0 }

/-! ## Meanings -/

/-- ARRIVAL_TAKE. -/
def execArrivalTake (l : Fin 8) (s : State) : Host.Outcome State Fault Refusal := .next (s.arrivalTake l)

/-- GAP_DEADLINE_EXPIRY. -/
def execGapDeadlineExpiry (index : Fin 512) (s : State) : Host.Outcome State Fault Refusal :=
  .next (s.gapExpiry index.val)

/-- WRITE_CHANNEL. -/
def execWriteChannel (p : Fin 3) (s : State) : Host.Outcome State Fault Refusal :=
  .next (s.takeCommand p fun c =>
    match c with
    | .writeChannel i k n a q m o r x g =>
      some (State.writeChannel p i k n a q m o r x g)
    | _ => none)

/-- REMOVE_CHANNEL. -/
def execRemoveChannel (p : Fin 3) (s : State) : Host.Outcome State Fault Refusal :=
  .next (s.takeCommand p fun c =>
    match c with
    | .removeChannel i => some (State.removeChannel p i)
    | _ => none)

/-- SET_PAIR_MODE. -/
def execSetPairMode (p : Fin 3) (s : State) : Host.Outcome State Fault Refusal :=
  .next (s.takeCommand p fun c =>
    match c with
    | .setPairMode q m => some (State.setPairMode p q m)
    | _ => none)

/-- SUBSCRIBE. -/
def execSubscribe (p : Fin 3) (s : State) : Host.Outcome State Fault Refusal :=
  .next (s.takeCommand p fun c =>
    match c with
    | .subscribe a b l => some (State.setLevels p a b l subscribed)
    | _ => none)

/-- UNSUBSCRIBE. -/
def execUnsubscribe (p : Fin 3) (s : State) : Host.Outcome State Fault Refusal :=
  .next (s.takeCommand p fun c =>
    match c with
    | .unsubscribe a b l => some (State.setLevels p a b l unsubscribed)
    | _ => none)

/-- SUBSCRIBE_UNMAPPED. -/
def execSubscribeUnmapped (p : Fin 3) (s : State) : Host.Outcome State Fault Refusal :=
  .next (s.takeCommand p fun c =>
    match c with
    | .subscribeUnmapped x => some (State.setUnmapped p x)
    | _ => none)

/-- READ_CHANNEL. -/
def execReadChannel (p : Fin 3) (s : State) : Host.Outcome State Fault Refusal :=
  .next (s.takeCommand p fun c =>
    match c with
    | .readChannel i => some (State.readChannel i)
    | _ => none)

end Sys2Proof.Machine
end

