-- ==== Sys2Proof/Machine/Commands.lean ====
section
/-! DEFINITION. The commands of the drop links that the port, the pool, the marker unit, the line receivers,
the discipline controller and the timescale counter own (09 R178), and the parts of Reset Port (09 R181). -/

namespace Sys2Proof.Machine

/-! ## The port's own commands -/

/-- Attach (09 R167). -/
def State.attach (p : Fin 3) (credits : Nat) (s : State) : State × Reply :=
  if s.ports[p].state = .detached then
    (s.updPort p fun q =>
      { q with state := .streaming, credits := credits,
               hbTimer := q.pacing.heartbeatTicks.map fun n => s.tick + n }, .bare .done)
  else (s, .bare .refusedState)

/-- Detach (09 R169). -/
def State.detach (p : Fin 3) (s : State) : State × Reply :=
  if s.ports[p].inService then (s.detachPort p .command, .bare .done) else (s, .bare .refusedState)

/-- Hold (09 R168). -/
def State.hold (p : Fin 3) (s : State) : State × Reply :=
  if s.ports[p].state = .streaming then
    (s.updPort p fun q =>
      { q with state := .held, holdTimer := some (s.tick + q.pacing.holdMs * Config.ticksPerMs) }, .bare .done)
  else (s, .bare .refusedState)

/-- Release (09 R168). -/
def State.release (p : Fin 3) (s : State) : State × Reply :=
  if s.ports[p].state = .held then
    (s.updPort p fun q => { q with state := .streaming, holdTimer := none }, .bare .done)
  else (s, .bare .refusedState)

/-- The limit of the credits (09 R171). -/
def maxCredits : Nat := 65535

/-- Grant Credits (09 R171). -/
def State.grantCredits (p : Fin 3) (count : Nat) (s : State) : State × Reply :=
  if s.ports[p].inService then
    let sum := s.ports[p].credits + count
    (s.updPort p fun q => { q with credits := min sum maxCredits },
     .carriedOut (maxCredits < sum) (toBytes 2 (min sum maxCredits)))
  else (s, .bare .refusedState)

/-- The heartbeat timer after a Set Pacing: a change of period restarts or stops it (08 R162). -/
def Port.repace (tick : Nat) (n : Pacing) (q : Port) : Option Nat :=
  if n.heartbeat = q.pacing.heartbeat then q.hbTimer
  else if q.inService then n.heartbeatTicks.map fun k => tick + k
  else none

/-- Set Pacing (09 R179). -/
def State.setPacing (p : Fin 3) (heartbeat holdMs silence : Nat) (s : State) : State × Reply :=
  match code12 heartbeat, code4 silence with
  | some h, some si =>
    let n : Pacing := { heartbeat := h, holdMs := clampNat 1 1000 holdMs, silence := si }
    (s.updPort p fun q => { q with pacing := n, hbTimer := q.repace s.tick n },
     .carriedOut (n.holdMs != holdMs) n.bytes)
  | _, _ => (s, .bare .malformed)

/-- Read Status: the reply carries the attention summary as it stood, which is then emptied (09 R180, 08 R161). -/
def State.readStatus (p : Fin 3) (s : State) : State × Reply :=
  (s.updPort p fun q => { q with attention := 0 }, .carriedOut false (s.statusBytes p))

/-! ## The pool's command -/

/-- A requested quota rounded down to a multiple of 256 and clamped (08 R153). -/
def roundQuota (n : Nat) : Nat := clampNat 256 16384 (n / 256 * 256)

/-- The quota in force and the sum of the three quotas (11 R192). -/
def State.quotaBytes (p : Fin 3) (s : State) : List Byte := toBytes 2 s.ports[p].quota ++ toBytes 2 s.quotaSum

/-- Set Quota (08 R153). -/
def State.setQuota (p : Fin 3) (requested : Nat) (s : State) : State × Reply :=
  let n := roundQuota requested
  if Config.poolSize < max n s.ports[p].queue.length + s.otherCommitments p then (s, .bare .refusedCapacity)
  else
    let t := s.updPort p fun q => { q with quota := n }
    (t, .carriedOut (n != requested) (t.quotaBytes p))

/-- The quota restored at Reset Port where the sum of commitments allows (08 R153). -/
def State.restoreQuota (p : Fin 3) (s : State) : State :=
  if Config.startQuota + s.otherCommitments p ≤ Config.poolSize then
    s.updPort p fun q => { q with quota := Config.startQuota }
  else s

/-! ## Commands of the marker unit -/

/-- Subscribe Markers (05 R102). -/
def State.setMarkerSubs (p : Fin 3) (set : BitVec 4) (s : State) : State × Reply :=
  ({ s with markerSubs := s.markerSubs.set p set }, .bare .done)

/-- Swap Markers (07 R143). -/
def State.swapMarkers (p : Fin 3) (s : State) : State × Reply :=
  ({ s with markerPending := s.markerPending.set p (Vector.replicate 4 0) },
   .carriedOut false (s.markerPending[p].toList.map byte))

/-- Read Marker Log (07 R141). -/
def State.readMarkerLog (input : Nat) (s : State) : State × Reply :=
  if h : input < 4 then (s, .carriedOut false (s.markers[input].logBytes ⟨input, h⟩))
  else (s, .bare .malformed)

/-- Write Marker Settings (07 R134, R139). -/
def State.writeMarker (p : Fin 3) (input select width : Nat) (comp : BitVec 16) (s : State) : State × Reply :=
  match EdgeSelect.ofCode select, code4 width with
  | some e, some w =>
    if h : input < 4 then
      let r : MarkerSettings := { select := e, width := w, comp := comp }
      ((s.setMarker ⟨input, h⟩ r).notifyAll (.settings (.marker ⟨input, h⟩) p),
       .carriedOut false (byte input :: r.bytes))
    else (s, .bare .malformed)
  | _, _ => (s, .bare .malformed)

/-! ## Commands of the line receivers -/

/-- An enable code that names a value. -/
def enableOf : Nat → Option Bool
  | 0 => some false
  | 1 => some true
  | _ => none

/-- Write Line Settings (04 R74). -/
def State.writeLine (p : Fin 3) (line enable : Nat) (comp : BitVec 16) (quietMs : Nat) (s : State) :
    State × Reply :=
  match enableOf enable with
  | none => (s, .bare .malformed)
  | some e =>
    if h : line < 8 then
      let r : LineSettings := { enable := e, comp := comp, quietMs := clampNat 1 10000 quietMs }
      ((s.setLine ⟨line, h⟩ r).notifyAll (.settings (.line ⟨line, h⟩) p),
       .carriedOut (r.quietMs != quietMs) (r.bytes ⟨line, h⟩))
    else (s, .bare .malformed)

/-! ## Commands of the discipline controller and the timescale -/

/-- A new discipline settings record, taken at this tick (02 R50, R51; 03 R68; 01 R20, R22). -/
def State.setDiscipline (r : DisciplineSettings) (s : State) : State :=
  let t := s.updDisc fun d => { d with settings := r }
  let t := t.applyTerms t.disc.rate (clampInt (-(r.slewLimit : Int)) r.slewLimit t.disc.slew)
  let t :=
    if r.calInterval = s.disc.settings.calInterval then t
    else { t with calExpiry := r.calTicks.map fun n => s.tick + n }
  let t := (t.narrowSecp r.secpNs).reread
  if t.secp && r.secpNs ≤ t.time.ns then t.dropSecp else t

/-- Write Discipline Settings (02 R50). -/
def State.writeDiscipline (p : Fin 3) (slewLimit a b window lockThreshold lockCount reacquireCount stepThreshold
    holdoverLimit calInterval secpWidth lockoSource polarity : Nat) (s : State) : State × Reply :=
  match code4 window, code4 lockThreshold, code4 stepThreshold, code4 holdoverLimit, code4 calInterval,
    code4 secpWidth, LockoSource.ofCode lockoSource, Polarity.ofCode polarity with
  | some w, some lt, some st, some hl, some ci, some sw, some ls, some po =>
    let r : DisciplineSettings :=
      { slewLimit := clampNat 1 100000 slewLimit, a := min a 7, b := min b 7, window := w, lockThreshold := lt,
        lockCount := clampNat 2 16 lockCount, reacquireCount := clampNat 2 16 reacquireCount,
        stepThreshold := st, holdoverLimit := hl, calInterval := ci, secpWidth := sw, lockoSource := ls,
        polarity := po }
    let clamped := r.slewLimit != slewLimit || r.a != a || r.b != b || r.lockCount != lockCount
      || r.reacquireCount != reacquireCount
    ((s.setDiscipline r).notifyAll (.settings .discipline p), .carriedOut clamped r.bytes)
  | _, _, _, _, _, _, _, _ => (s, .bare .malformed)

/-- Label Next Pulse (02 R44). -/
def State.armLabel (value : Nat) (s : State) : State × Reply :=
  if s.mon.invalid then (s, .bare .refusedState)
  else
    let v := min value Config.maxSec
    (s.updDisc fun d => { d with label := some { value := v, rollovers := 0 } },
     .carriedOut (v != value) (toBytes 8 v))

/-- Trim Rate (02 R47). -/
def State.trimRate (rate : Int) (s : State) : State × Reply :=
  match s.disc.state with
  | .settling | .locked => (s, .bare .refusedState)
  | .unset | .freerun | .holdover =>
    let v := clampInt (-200000) 200000 rate
    ((s.applyTerms v s.disc.slew).reread, .carriedOut (v != rate) (toBytesInt 4 v))

/-- Clear Invalid (02 R48, 10 R187). -/
def State.clearInvalid (s : State) : State × Reply :=
  if !s.mon.complete then (s, .bare .stillSettling)
  else if s.mon.invalid then
    ((((s.updMon fun m => { m with invalid := false }).notifyAll (.invalid none)).reread), .bare .done)
  else (s, .bare .done)

/-- Query Time (09 R180). -/
def State.queryTime (s : State) : State × Reply :=
  (s, { code := .done, time := some s.now, data := s.timeBytes })

/-! ## Reset Port (09 R181) -/

/-- Change the Reset Port that a port has handed on: it is the command that can be taken. -/
def Port.updParts (f : QueuedCommand → QueuedCommand) (q : Port) : Port :=
  match q.orphans with
  | c :: cs => { q with orphans := f c :: cs }
  | [] => { q with cmds := updFirst .handed f q.cmds }

/-- The parts of the Reset Port that a port has handed on. -/
def Port.resetParts (q : Port) : Option ResetParts := q.takeable.bind QueuedCommand.parts

/-- Whether every part has been taken. -/
def ResetParts.all (x : ResetParts) : Bool := x.engine && x.marker && x.pool

/-- The port's part of Reset Port: it leaves service, its cause, loss total and counters are set, and the
command is handed on. -/
def State.resetPortPart (p : Fin 3) (s : State) : State :=
  if s.running && s.ports[p].resetParts.isNone
      && (s.ports[p].takeable.bind fun c => parseCommand c.bytes) == some .resetPort then
    let t := if s.ports[p].inService then s.detachPort p .reset else s
    t.updPort p fun q =>
      ({ q with cause := .reset, lossTotal := 0, counters := .zero } : Port).updParts fun c =>
        { c with parts := some { engine := false, marker := false, pool := false } }
  else s

/-- A block takes its part of a Reset Port, once; with the last part the reply is formed (09 R181). -/
def State.takePart (p : Fin 3) (isTaken : ResetParts → Bool) (mark : ResetParts → ResetParts) (act : State → State)
    (s : State) : State :=
  match s.ports[p].resetParts with
  | none => s
  | some x =>
    if s.running && !isTaken x then
      let t := (act s).updPort p fun q => q.updParts fun c => { c with parts := some (mark x) }
      if (mark x).all then t.updPort p (Port.answer (.carriedOut false (t.quotaBytes p))) else t
    else s

/-- The engine's part (05 R103). It concerns every entry. -/
def State.clearLevels (p : Fin 3) (s : State) : State :=
  let t := s.overdue fun _ => true
  { t with
    channels := tableMap (fun _ e => { e with levels := e.levels.set p .none }) t.channels
    unmapped := t.unmapped.set p 0 }

/-- The marker unit's part (07 R142). -/
def State.clearMarkers (p : Fin 3) (s : State) : State :=
  { s with
    markerSubs := s.markerSubs.set p 0
    markerPending := s.markerPending.set p (Vector.replicate 4 0) }

/-! ## Meanings -/

/-- ATTACH. -/
def execAttach (p : Fin 3) (s : State) : Host.Outcome State Fault Refusal :=
  .next (s.takeCommand p fun c =>
    match c with
    | .attach n => some (State.attach p n)
    | _ => none)

/-- DETACH. -/
def execDetach (p : Fin 3) (s : State) : Host.Outcome State Fault Refusal :=
  .next (s.takeCommand p fun c =>
    match c with
    | .detach => some (State.detach p)
    | _ => none)

/-- HOLD. -/
def execHold (p : Fin 3) (s : State) : Host.Outcome State Fault Refusal :=
  .next (s.takeCommand p fun c =>
    match c with
    | .hold => some (State.hold p)
    | _ => none)

/-- RELEASE. -/
def execRelease (p : Fin 3) (s : State) : Host.Outcome State Fault Refusal :=
  .next (s.takeCommand p fun c =>
    match c with
    | .release => some (State.release p)
    | _ => none)

/-- GRANT_CREDITS. -/
def execGrantCredits (p : Fin 3) (s : State) : Host.Outcome State Fault Refusal :=
  .next (s.takeCommand p fun c =>
    match c with
    | .grantCredits n => some (State.grantCredits p n)
    | _ => none)

/-- SET_QUOTA. -/
def execSetQuota (p : Fin 3) (s : State) : Host.Outcome State Fault Refusal :=
  .next (s.takeCommand p fun c =>
    match c with
    | .setQuota n => some (State.setQuota p n)
    | _ => none)

/-- SET_PACING. -/
def execSetPacing (p : Fin 3) (s : State) : Host.Outcome State Fault Refusal :=
  .next (s.takeCommand p fun c =>
    match c with
    | .setPacing h m si => some (State.setPacing p h m si)
    | _ => none)

/-- SUBSCRIBE_MARKERS. -/
def execSubscribeMarkers (p : Fin 3) (s : State) : Host.Outcome State Fault Refusal :=
  .next (s.takeCommand p fun c =>
    match c with
    | .subscribeMarkers x => some (State.setMarkerSubs p x)
    | _ => none)

/-- QUERY_TIME. -/
def execQueryTime (p : Fin 3) (s : State) : Host.Outcome State Fault Refusal :=
  .next (s.takeCommand p fun c =>
    match c with
    | .queryTime => some State.queryTime
    | _ => none)

/-- READ_STATUS. -/
def execReadStatus (p : Fin 3) (s : State) : Host.Outcome State Fault Refusal :=
  .next (s.takeCommand p fun c =>
    match c with
    | .readStatus => some (State.readStatus p)
    | _ => none)

/-- SWAP_MARKERS. -/
def execSwapMarkers (p : Fin 3) (s : State) : Host.Outcome State Fault Refusal :=
  .next (s.takeCommand p fun c =>
    match c with
    | .swapMarkers => some (State.swapMarkers p)
    | _ => none)

/-- READ_MARKER_LOG. -/
def execReadMarkerLog (p : Fin 3) (s : State) : Host.Outcome State Fault Refusal :=
  .next (s.takeCommand p fun c =>
    match c with
    | .readMarkerLog m => some (State.readMarkerLog m)
    | _ => none)

/-- RESET_PORT. -/
def execResetPort (p : Fin 3) (s : State) : Host.Outcome State Fault Refusal := .next (s.resetPortPart p)

/-- RESET_PORT_ENGINE_PART. -/
def execResetPortEnginePart (p : Fin 3) (s : State) : Host.Outcome State Fault Refusal :=
  .next (s.takePart p ResetParts.engine (fun x => { x with engine := true }) (State.clearLevels p))

/-- RESET_PORT_MARKER_PART. -/
def execResetPortMarkerPart (p : Fin 3) (s : State) : Host.Outcome State Fault Refusal :=
  .next (s.takePart p ResetParts.marker (fun x => { x with marker := true }) (State.clearMarkers p))

/-- RESET_PORT_POOL_PART. -/
def execResetPortPoolPart (p : Fin 3) (s : State) : Host.Outcome State Fault Refusal :=
  .next (s.takePart p ResetParts.pool (fun x => { x with pool := true }) (State.restoreQuota p))

/-- WRITE_LINE_SETTINGS. -/
def execWriteLineSettings (p : Fin 3) (s : State) : Host.Outcome State Fault Refusal :=
  .next (s.takeCommand p fun c =>
    match c with
    | .writeLineSettings l e x q => some (State.writeLine p l e x q)
    | _ => none)

/-- WRITE_MARKER_SETTINGS. -/
def execWriteMarkerSettings (p : Fin 3) (s : State) : Host.Outcome State Fault Refusal :=
  .next (s.takeCommand p fun c =>
    match c with
    | .writeMarkerSettings m e w x => some (State.writeMarker p m e w x)
    | _ => none)

/-- WRITE_DISCIPLINE_SETTINGS. -/
def execWriteDisciplineSettings (p : Fin 3) (s : State) : Host.Outcome State Fault Refusal :=
  .next (s.takeCommand p fun c =>
    match c with
    | .writeDisciplineSettings sl a b w lt lc rc st hl ci sw ls po =>
      some (State.writeDiscipline p sl a b w lt lc rc st hl ci sw ls po)
    | _ => none)

/-- LABEL_NEXT_PULSE. -/
def execLabelNextPulse (p : Fin 3) (s : State) : Host.Outcome State Fault Refusal :=
  .next (s.takeCommand p fun c =>
    match c with
    | .labelNextPulse v => some (State.armLabel v)
    | _ => none)

/-- TRIM_RATE. -/
def execTrimRate (p : Fin 3) (s : State) : Host.Outcome State Fault Refusal :=
  .next (s.takeCommand p fun c =>
    match c with
    | .trimRate r => some (State.trimRate r)
    | _ => none)

/-- CLEAR_INVALID. -/
def execClearInvalid (p : Fin 3) (s : State) : Host.Outcome State Fault Refusal :=
  .next (s.takeCommand p fun c =>
    match c with
    | .clearInvalid => some State.clearInvalid
    | _ => none)

end Sys2Proof.Machine
end

