-- ==== Sys2Proof/Machine/Holds.lean ====
section
/-! DEFINITION. What RSTN does, and what each hold or stop of the core takes from the blocks: the RSTN,
supply-dip and clock-stop columns of 01 R23, 02 R55, 03 R71, R72, 04 R92, 05 R107, 07 R144, 08 R164, 09 R182. -/

namespace Sys2Proof.Machine

/-! ## RSTN (10 R189) -/

/-- A port at the assertion of RSTN: DOWN with the effects of 09 R166, cause NONE, counters and loss total 0
(08 R164, 09 R182). -/
def State.resetPortByPin (p : Fin 3) (s : State) : State :=
  (s.downPort p).updPort p fun q => { q with cause := .none, counters := .zero, lossTotal := 0 }

/-- A line at the assertion of RSTN (04 R91, R92). -/
def State.resetLineByPin (l : Fin 8) (s : State) : State :=
  (s.restartLine l).updLine l fun x => { x with frameCount := 0, damaged := 0, unmapped := 0, coarseCount := 0 }

/-- The marker unit's per-port state emptied (07 R144). -/
def State.emptyMarkerPorts (s : State) : State :=
  { s with markerSubs := Vector.replicate 3 0, markerPending := Vector.replicate 3 (Vector.replicate 4 0) }

/-- The assertion of RSTN as the core takes it (10 R189). What was handed over and not yet taken at that tick
goes with the windows and the queues (log entry 20). -/
def State.assertRstn (s : State) : State :=
  let t := sweep State.resetPortByPin allPorts s
  let t := (sweep State.resetLineByPin allLines t).emptyWindows.emptyMarkerPorts
  { t with
    arrivals := Vector.replicate 8 []
    pool := { t.pool with fromEngine := [], fromMarkers := [] }
    rstnAsserted := true }

/-- Each port takes its permit from its strap pin (09 R177). -/
def State.samplePermits (s : State) : State :=
  s.mapPorts fun p q => { q with permit := s.straps.getLsbD p.val }

/-- The release of RSTN as the core takes it (10 R189; 03 R72, 07 R144). -/
def State.releaseRstn (s : State) : State :=
  let t := s.samplePermits.mapInterps fun x => { x with busy := 0, calibrations := 0 }
  let t := t.mapMarkers fun y => { y with glitches := 0 }
  { t with rstnAsserted := false, rstnReleaseAt := none }

/-- RSTN as it stands when the core is held or frozen is latched, so that the release takes it again
(10 R189, log entry 29). -/
def State.latchRstn (s : State) : State :=
  let t := s.updMon fun m =>
    if s.rstnAsserted then { m with latched := true, latchReleased := !s.rstnLow } else m
  { t with rstnAsserted := false, rstnReleaseAt := none }

/-! ## A stop of the core clock (10 R185) -/

/-- An interpolator at a stop: what is in flight is lost, a collection is discarded (03 R71). -/
def Interp.freeze (x : Interp) : Interp :=
  { x with presented := [], captured := 0, conv := none, sample := none, lastEnd := none, coarse := [],
           collection := none }

/-- What every block loses at a stop of the core clock. -/
def State.freezeCore (s : State) : State :=
  let t := s.latchRstn.mapInterps Interp.freeze
  let t := t.mapLines fun x => { x with frames := [] }
  let t := t.mapMarkers fun y => { y with rawSeen := 0, candidate := none, waiting := [] }
  let t := t.mapPorts fun _ q => { q with tx := none }
  { t with secp := false, secpFell := none, calExpiry := none }

/-! ## A dip of the core supply (10 R186) -/

/-- A line at a dip (04 R92). -/
def Line.dip (x : Line) : Line :=
  { x with quiet := none, lock := false, frames := [], frameCount := 0, damaged := 0, unmapped := 0,
           coarseCount := 0 }

/-- A marker input at a dip (07 R144). -/
def Marker.dip (y : Marker) : Marker :=
  { y with rawSeen := 0, candidate := none, waiting := [], count := 0, glitches := 0, log := [] }

/-- A port at a dip: its quota, pacing settings and permit are kept (08 R164, 09 R182). -/
def Port.dip (q : Port) : Port :=
  { Port.reset with quota := q.quota, pacing := q.pacing, permit := q.permit }

/-- What every block loses at a dip of the core supply; the timescale and the settings are kept. -/
def State.loseCore (s : State) : State :=
  let t := s.latchRstn.mapInterps fun _ => .reset
  let t := (t.mapLines Line.dip).mapMarkers Marker.dip
  let t := t.emptyWindows.emptyMarkerPorts.mapPorts fun _ q => q.dip
  { t.enterUnset with
    secp := false, secpFell := none, rolled := .none, calExpiry := none, arrivals := Vector.replicate 8 []
    pool := { t.pool with entries := [], fromEngine := [], fromMarkers := [] } }

end Sys2Proof.Machine
end

