-- ==== Sys2Proof/Machine/Tick.lean ====
section
/-! DEFINITION. The core tick (01 R4): what is still due at a tick is taken before the next one begins
(log entry 2), then the counter adds its increment. -/

namespace Sys2Proof.Machine

/-! ## What is still due -/

/-- A sample that has come to its end tick ends with a code that nothing is known of (log entry 9). -/
def State.dueSample (i : Input) (s : State) : State :=
  if (s.interp i).sample.any fun t => t ≤ s.tick then
    ({ s with free := s.free + 1 }).endSample i (Config.freeCode s.free)
  else s

/-- The edges presented to an interpolator at this tick are captured. -/
def State.dueCaptures (i : Input) (s : State) : State :=
  if (s.interp i).presented.isEmpty then s
  else times (State.captureEdge i) (s.interp i).presented.length s

/-- A link lost while the core was frozen is taken (10 R185). -/
def State.dueLinkLoss (p : Fin 3) (s : State) : State := if s.ports[p].linkLost then s.linkLoss p else s

/-- A latched release of RSTN is taken at its tick; a pin that is low by then is a new assertion (10 R189). -/
def State.dueRstn (s : State) : State :=
  if s.rstnReleaseAt.any (fun t => t ≤ s.tick) then
    let t := s.releaseRstn
    if t.rstnLow then t.assertRstn else t
  else s

/-- Every arrival handed off by a line is taken. -/
def State.dueArrivals (l : Fin 8) (s : State) : State := times (State.arrivalTake l) s.arrivals[l].length s

/-- Every gap deadline that is reached is taken. -/
def State.dueGaps (s : State) : State := sweep State.gapExpiry (s.channels.map Prod.fst) s

/-- Every record handed over is offered. -/
def State.dueOffers (s : State) : State :=
  let t := times (State.takeOffer .engine) s.pool.fromEngine.length s
  times (State.takeOffer .markers) t.pool.fromMarkers.length t

/-- What every block but the ports must take at this tick and has not taken: the rollover, edges handed over,
captures, samples, deadlines, a rollover that a correction has made among these (01 R14), timers, arrivals, gap
deadlines. Nothing from the timers on changes the value or the epoch. -/
def State.closeBlocks (s : State) : State :=
  let t := sweep State.dueEdges allInputs s.takeRollover
  let t := sweep State.dueSample allInputs (sweep State.dueCaptures allInputs t)
  let t := t.noPulse.missedWindow.takeRollover.calibrationExpiry
  let t := sweep State.qualify allMarkers t
  let t := sweep State.quietExpiry allLines t
  let t := (sweep State.dueLinkLoss allPorts t).dueRstn
  (sweep State.dueArrivals allLines t).dueGaps

/-- Everything that must be taken at this tick and has not been: then records, port timers, link frames, the fall of
SECP. -/
def State.closeTick (s : State) : State :=
  let t := s.closeBlocks.dueOffers
  let t := sweep State.heartbeatExpiry allPorts t
  let t := sweep State.holdExpiry allPorts t
  let t := sweep State.silenceExpiry allPorts t
  (sweep State.startLinkFrame allPorts t).secpFall

/-! ## The next tick -/

/-- The counter adds its increment; a rollover of the tick waits to be taken (01 R4, R5). -/
def State.count (s : State) : State :=
  { s with time := s.time.addTick, rolled := s.rolled.next s.time.rolls }

/-- The next core tick begins: no edge has been captured or taken at it yet. -/
def State.advanceTick (s : State) : State :=
  let t := s.mapInterps fun x => { x with captured := 0 }
  let t := t.mapMarkers fun y => { y with rawSeen := 0 }
  ({ t with tick := s.tick + 1, mon := { s.mon with noTick := 0 } }).count

/-- Whether the next tick takes the value past the end of the second. -/
def State.rollsNext (s : State) : Bool := s.closeTick.time.rolls

/-- The rollover is taken: at this tick where it waits, and else at the next core tick where that one rolls over
(01 R5; log entry 4). -/
def State.rollOver (s : State) : State :=
  if s.rolled = .waiting then s.takeRollover
  else if s.rollsNext then s.closeTick.advanceTick.takeRollover
  else s

/-- ROLLOVER. -/
def execRollover (s : State) : Host.Outcome State Fault Refusal := .next (if s.running then s.rollOver else s)

end Sys2Proof.Machine
end

