-- ==== Sys2Proof/Machine/Monitor.lean ====
section
/-! DEFINITION. The clock monitor (10): power-on, release, stop, dip, the reset input, and the core tick,
which releases a core that waits for one. RC cycles are not steps: the rows name where a count ends
(log entry 8). -/

namespace Sys2Proof.Machine

/-! ## Release of the core (10 R188) -/

/-- Whether the next core tick releases the core (10 R184 to R186). -/
def State.releaseReady (s : State) : Bool :=
  s.mon.phase == .stopped || (s.mon.phase == .clockQualify && s.mon.complete)

/-- An interpolator at the release: IDLE, with a collection started (03 R65, R70, R71). -/
def Interp.release (x : Interp) : Interp := { x.freeze with captured := 0, collection := some .start }

/-- A marker input at the release: the qualified level is the sampled level (07 R144), which is the level of the pin as
CORE_RELEASE is taken; a raw edge after it in the release tick is a change from it (DESIGN CHOICE, log entry 34). -/
def Marker.release (y : Marker) : Marker :=
  { y with rawSeen := 0, qualified := y.level, candidate := none, waiting := [] }

/-- The first tick of a released core: the counter adds its first increment and the blocks begin. -/
def State.firstTick (s : State) : State :=
  let t := (s.mapInterps Interp.release).mapMarkers Marker.release
  ({ t with
      tick := s.tick + 1
      calExpiry := s.disc.settings.calTicks.map fun n => s.tick + 1 + n
      secp := false
      secpFell := none }).enterUnset.count

/-- A latched or present RSTN is taken at the first tick, and its release, if it has been seen, at the next
(10 R189). -/
def State.takeLatch (s : State) : State :=
  if s.mon.latched || s.rstnLow then
    let t := s.assertRstn
    { t with
      rstnReleaseAt := if s.mon.latchReleased || !s.rstnLow then some (s.tick + 1) else none
      mon := { t.mon with latched := false, latchReleased := false } }
  else s

/-- The release of the core at a core tick, with the levels of the strap pins. The lines change in rising order, L0
first, and each raises its LINE: DESIGN CHOICE, since 04 R77 gives them no order (log entry 33). -/
def State.releaseCore (straps : BitVec 3) (s : State) : State :=
  let t := ({ s with straps := straps }).updMon fun m => { m with phase := .run, noTick := 0 }
  let t := if s.mon.cause = .powerOn then t.samplePermits else t
  let t := (t.firstTick.notifyAll (.invalid (some s.mon.cause))).raiseQuality s.disc.state s.disc.suspect
  (sweep State.restartLine allLines t).takeLatch

/-- POWER_ON: every block takes its power-on values; the levels of the pins and VIO stay (10 R184). -/
def execPowerOn (s : State) : Host.Outcome State Fault Refusal :=
  .next (sweep (fun m => State.updMarker m fun y => { y with level := s.markers[m].level }) allMarkers
    { State.reset with pending := s.pending, free := s.free, straps := s.straps, rstnLow := s.rstnLow
                       mon := { Monitor.reset with vio := s.mon.vio } })

/-- STARTUP_DELAY_END: a core supply below its threshold, or VIO that is not present, holds the monitor in STARTUP
(10 R184). -/
def execStartupDelayEnd (s : State) : Host.Outcome State Fault Refusal :=
  .next (if s.mon.phase == .startup && !s.mon.supplyLow && s.mon.vio then
    s.updMon fun m => { m with phase := .clockQualify, rc := Config.startupCycles } else s)

/-- CORE_RELEASE (10 R188). -/
def execCoreRelease (straps : BitVec 3) (s : State) : Host.Outcome State Fault Refusal :=
  .next (if s.releaseReady then s.releaseCore straps else s)

/-- CORE_TICK: the core takes a tick (01 R4), or a tick that releases it. -/
def execCoreTick (s : State) : Host.Outcome State Fault Refusal :=
  .next (
    if s.running then s.closeTick.advanceTick
    else if s.releaseReady then s.releaseCore s.straps
    else s.updMon fun m => { m with noTick := 0 })

/-! ## Losing the clock or the supply -/

/-- CLOCK_STOP (10 R185): the last tick is closed first (log entry 19). Before RUN it holds the clock-good count
at 0 (10 R186). -/
def execClockStop (s : State) : Host.Outcome State Fault Refusal :=
  .next (if s.running then
    s.closeTick.freezeCore.updMon fun m =>
      { m with phase := .stopped, noTick := Config.stopCycles, good := 0, cause := .clockStop }
    else s.updMon fun m => { m with noTick := Config.stopCycles, good := 0 })

/-- CLOCK_DROPOUT: an RC cycle without a core tick, short of a stop (10 R183). -/
def execClockDropout (s : State) : Host.Outcome State Fault Refusal :=
  .next (if s.running && Config.stopCycles ≤ s.mon.noTick + 1 then s
    else s.updMon fun m => { m with good := 0, noTick := min (m.noTick + 1) Config.stopCycles })

/-- CLOCK_GOOD_COUNT_COMPLETE (10 R183). A frozen core has left STOPPED at the first tick of such a run. -/
def execClockGoodCountComplete (s : State) : Host.Outcome State Fault Refusal :=
  .next (if s.mon.phase == .stopped then s
    else s.updMon fun m => { m with good := Config.goodCycles, noTick := 0 })

/-- The part before its first release, where a fall of the supply starts it over (10 R184). -/
def Monitor.beforeFirstRelease (m : Monitor) : Bool :=
  m.phase == .startup || (m.phase == .clockQualify && m.cause == .powerOn)

/-- SUPPLY_DIP (10 R184, R186). Before the first release a fall leads to STARTUP at once, and the monitor waits there
with the RC count at 0 while the supply is below its threshold; 10 R184 names STARTUP once the supply has risen, and
gives CLOCK_QUALIFY no state in between: DESIGN CHOICE (log entry 40). After the first release DIP is entered at once:
what is due at the last tick and has not been taken is lost with the hold, which is DESIGN CHOICE (log entry 36). That
the clock-good count becomes 0 at a fall in DIP_RECOVERY too is DESIGN CHOICE (log entry 37). -/
def execSupplyDip (s : State) : Host.Outcome State Fault Refusal :=
  .next (
    if s.mon.phase = .dip then s
    else if s.mon.beforeFirstRelease then
      s.updMon fun m => { m with phase := .startup, rc := 0, supplyLow := true }
    else
      s.loseCore.updMon fun m => { m with phase := .dip, rc := 0, good := 0, cause := .supplyDip })

/-- SUPPLY_RECOVERY (10 R184, R186). In STARTUP with the core supply not below its threshold, the supply that rises
is VIO, which has no row of its own: DESIGN CHOICE (log entry 38). -/
def execSupplyRecovery (s : State) : Host.Outcome State Fault Refusal :=
  .next (
    match s.mon.phase with
    | .dip => s.updMon fun m => { m with phase := .dipRecovery, rc := 0 }
    | .startup => s.updMon fun m => if m.supplyLow then { m with supplyLow := false } else { m with vio := true }
    | .dipRecovery | .clockQualify | .run | .stopped => s)

/-- DIP_RECOVERY_END (10 R186). -/
def execDipRecoveryEnd (s : State) : Host.Outcome State Fault Refusal :=
  .next (if s.mon.phase = .dipRecovery then
    s.updMon fun m => { m with phase := .clockQualify, rc := Config.dipCycles } else s)

/-! ## The reset input (10 R189) -/

/-- RSTN_ASSERTION: the pin is seen low; while the core is held or frozen the monitor latches it. -/
def execRstnAssertion (s : State) : Host.Outcome State Fault Refusal :=
  .next (
    if s.rstnLow then s
    else
      let t := { s with rstnLow := true }
      if !s.running then t.updMon fun m => { m with latched := true }
      else if s.rstnAsserted then t else t.assertRstn)

/-- RSTN_RELEASE: the pin is seen high again. -/
def execRstnRelease (straps : BitVec 3) (s : State) : Host.Outcome State Fault Refusal :=
  .next (
    if s.rstnLow then
      let t := { s with rstnLow := false, straps := straps }
      if !s.running then t.updMon fun m => { m with latched := true, latchReleased := true }
      else if s.rstnAsserted && s.rstnReleaseAt.isNone then t.releaseRstn else t
    else s)

end Sys2Proof.Machine
end

