-- ==== Sys2Proof/Machine/Dispatch.lean ====
section
/-! DEFINITION. One arm for each command: the meaning that runs it. -/

namespace Sys2Proof.Machine

/-- The effect of a command on everything but the queue. -/
def exec (i : Instr) (s : State) : Host.Outcome State Fault Refusal :=
  match i with
  | .attach p => Sys2Proof.Machine.execAttach p s
  | .detach p => Sys2Proof.Machine.execDetach p s
  | .hold p => Sys2Proof.Machine.execHold p s
  | .release p => Sys2Proof.Machine.execRelease p s
  | .grantCredits p => Sys2Proof.Machine.execGrantCredits p s
  | .setQuota p => Sys2Proof.Machine.execSetQuota p s
  | .setPacing p => Sys2Proof.Machine.execSetPacing p s
  | .subscribe p => Sys2Proof.Machine.execSubscribe p s
  | .unsubscribe p => Sys2Proof.Machine.execUnsubscribe p s
  | .subscribeUnmapped p => Sys2Proof.Machine.execSubscribeUnmapped p s
  | .subscribeMarkers p => Sys2Proof.Machine.execSubscribeMarkers p s
  | .queryTime p => Sys2Proof.Machine.execQueryTime p s
  | .readStatus p => Sys2Proof.Machine.execReadStatus p s
  | .readChannel p => Sys2Proof.Machine.execReadChannel p s
  | .swapMarkers p => Sys2Proof.Machine.execSwapMarkers p s
  | .readMarkerLog p => Sys2Proof.Machine.execReadMarkerLog p s
  | .resetPort p => Sys2Proof.Machine.execResetPort p s
  | .resetPortEnginePart p => Sys2Proof.Machine.execResetPortEnginePart p s
  | .resetPortMarkerPart p => Sys2Proof.Machine.execResetPortMarkerPart p s
  | .resetPortPoolPart p => Sys2Proof.Machine.execResetPortPoolPart p s
  | .writeChannel p => Sys2Proof.Machine.execWriteChannel p s
  | .removeChannel p => Sys2Proof.Machine.execRemoveChannel p s
  | .setPairMode p => Sys2Proof.Machine.execSetPairMode p s
  | .writeLineSettings p => Sys2Proof.Machine.execWriteLineSettings p s
  | .writeMarkerSettings p => Sys2Proof.Machine.execWriteMarkerSettings p s
  | .writeDisciplineSettings p => Sys2Proof.Machine.execWriteDisciplineSettings p s
  | .labelNextPulse p => Sys2Proof.Machine.execLabelNextPulse p s
  | .trimRate p => Sys2Proof.Machine.execTrimRate p s
  | .clearInvalid p => Sys2Proof.Machine.execClearInvalid p s
  | .rollover => Sys2Proof.Machine.execRollover s
  | .secpFall => Sys2Proof.Machine.execSecpFall s
  | .edgeCapture x => Sys2Proof.Machine.execEdgeCapture x s
  | .conversionEnd x code => Sys2Proof.Machine.execConversionEnd x code s
  | .coarseEdgeHandover x => Sys2Proof.Machine.execCoarseEdgeHandover x s
  | .internalEdge x => Sys2Proof.Machine.execInternalEdge x s
  | .sampleEnd x code => Sys2Proof.Machine.execSampleEnd x code s
  | .calibrationTimerExpiry => Sys2Proof.Machine.execCalibrationTimerExpiry s
  | .noPulse => Sys2Proof.Machine.execNoPulse s
  | .missedWindow => Sys2Proof.Machine.execMissedWindow s
  | .blockLockGained l => Sys2Proof.Machine.execBlockLockGained l s
  | .blockLockLost l bytes => Sys2Proof.Machine.execBlockLockLost l bytes s
  | .frameStart l bytes => Sys2Proof.Machine.execFrameStart l bytes s
  | .frameEnd l bytes how => Sys2Proof.Machine.execFrameEnd l bytes how s
  | .byteCountLimit l bytes => Sys2Proof.Machine.execByteCountLimit l bytes s
  | .quietTimerExpiry l => Sys2Proof.Machine.execQuietTimerExpiry l s
  | .arrivalTake l => Sys2Proof.Machine.execArrivalTake l s
  | .gapDeadlineExpiry index => Sys2Proof.Machine.execGapDeadlineExpiry index s
  | .markerRawEdge m d => Sys2Proof.Machine.execMarkerRawEdge m d s
  | .markerQualification m => Sys2Proof.Machine.execMarkerQualification m s
  | .recordOffer src => Sys2Proof.Machine.execRecordOffer src s
  | .heartbeatTimerExpiry p => Sys2Proof.Machine.execHeartbeatTimerExpiry p s
  | .linkUp p => Sys2Proof.Machine.execLinkUp p s
  | .linkLoss p => Sys2Proof.Machine.execLinkLoss p s
  | .commandFrameReceived p bytes => Sys2Proof.Machine.execCommandFrameReceived p bytes s
  | .commandHandover p => Sys2Proof.Machine.execCommandHandover p s
  | .linkFrameStart p => Sys2Proof.Machine.execLinkFrameStart p s
  | .linkFrameEnd p => Sys2Proof.Machine.execLinkFrameEnd p s
  | .holdTimerExpiry p => Sys2Proof.Machine.execHoldTimerExpiry p s
  | .silenceTimerExpiry p => Sys2Proof.Machine.execSilenceTimerExpiry p s
  | .powerOn => Sys2Proof.Machine.execPowerOn s
  | .startupDelayEnd => Sys2Proof.Machine.execStartupDelayEnd s
  | .coreRelease straps => Sys2Proof.Machine.execCoreRelease straps s
  | .clockStop => Sys2Proof.Machine.execClockStop s
  | .supplyDip => Sys2Proof.Machine.execSupplyDip s
  | .supplyRecovery => Sys2Proof.Machine.execSupplyRecovery s
  | .dipRecoveryEnd => Sys2Proof.Machine.execDipRecoveryEnd s
  | .rstnAssertion => Sys2Proof.Machine.execRstnAssertion s
  | .rstnRelease straps => Sys2Proof.Machine.execRstnRelease straps s
  | .coreTick => Sys2Proof.Machine.execCoreTick s
  | .clockDropout => Sys2Proof.Machine.execClockDropout s
  | .clockGoodCountComplete => Sys2Proof.Machine.execClockGoodCountComplete s

end Sys2Proof.Machine
end

