-- ==== Sys2Proof/Safety.lean ====
section
/-! DEFINITION. What a good state of the block is, one predicate for each kind of state. Each holds at reset and
is kept by every step; the statements that say so are in Certificates/Slice0/Obligations.lean. -/

namespace Sys2Proof.Machine

/-! ## The timescale (01 R1, R2; 02 R25) -/

/-- A reading is in its range (01 R6). -/
abbrev Reading.Ok (r : Reading) : Prop := r.ns < Config.nsPerSec ∧ r.sub < 256

/-- The captures an interpolator holds carry readings in their range. -/
abbrev Interp.ReadingsOk (x : Interp) : Prop :=
  (∀ v ∈ x.conv, v.cap.reading.Ok) ∧ ∀ c ∈ x.coarse, c.reading.Ok

/-- The value and the readings taken of it are in their ranges, the increment is that of the terms in force, and no
value below the greatest has passed it. -/
abbrev State.TimeOk (s : State) : Prop :=
  s.time.sec ≤ Config.maxSec ∧ s.time.ns < Config.nsPerSec ∧ s.time.frac < 2 ^ 32
    ∧ s.time.inc = increment s.disc.rate s.disc.slew ∧ (s.time.excess ≠ 0 → s.time.sec = Config.maxSec)
    ∧ ∀ i : Fin 13, s.interps[i].ReadingsOk

/-- A fall of SECP that stands leaves it low, is no later than the tick, and at its own tick the value is at or above
the width it goes by, which is no wider than the width in force (01 R19, R20). -/
abbrev State.SecpOk (s : State) : Prop :=
  ∀ f ∈ s.secpFell, s.secp = false ∧ f.tick ≤ s.tick
    ∧ (f.tick = s.tick → f.width ≤ s.time.ns ∧ f.width ≤ s.disc.settings.secpNs)

/-! ## The discipline controller (02 R25) -/

/-- The settings that Write Discipline Settings clamps are in their ranges (02 R50). -/
abbrev DisciplineSettings.Ok (r : DisciplineSettings) : Prop :=
  1 ≤ r.slewLimit ∧ r.slewLimit ≤ 100000 ∧ r.a ≤ 7 ∧ r.b ≤ 7 ∧ 2 ≤ r.lockCount ∧ r.lockCount ≤ 16
    ∧ 2 ≤ r.reacquireCount ∧ r.reacquireCount ≤ 16

/-- The terms are in their ranges. -/
abbrev Discipline.TermsOk (d : Discipline) : Prop :=
  d.rate.natAbs ≤ 200000 ∧ d.slew.natAbs ≤ d.settings.slewLimit ∧ d.settings.Ok

/-- The slew is 0 and no deadline is armed in the states that have none; counts are in their ranges. -/
abbrev Discipline.StateOk (d : Discipline) : Prop :=
  (d.state = .unset ∨ d.state = .freerun ∨ d.state = .holdover → d.slew = 0)
    ∧ (d.window.isSome ↔ d.state = .locked ∨ d.state = .holdover)
    ∧ (d.expected.isSome ↔ d.state = .locked ∨ d.state = .holdover)
    ∧ (d.silence.isSome ↔ d.state = .settling)
    ∧ (d.suspect = true → d.state = .locked)
    ∧ d.good ≤ 16 ∧ d.faults ≤ 1 ∧ d.reacquired ≤ 16 ∧ d.age ≤ 10000

/-- While INVALID is set the state is UNSET and no label is pending (01 R17). -/
abbrev State.InvalidOk (s : State) : Prop :=
  s.mon.invalid = true → s.disc.state = .unset ∧ s.disc.label = none

/-- All of the above. -/
abbrev State.DisciplineOk (s : State) : Prop := s.disc.TermsOk ∧ s.disc.StateOk ∧ s.InvalidOk

/-! ## The interpolators (03 R57, R61, R65) -/

/-- The sum of some bin counts. -/
def binSum (t : CalTable) : Nat := t.toList.sum

/-- A converter does one thing at a time; at most 14 coarse edges wait; a table holds 65,536 samples and a collection
fewer, each in its bin. -/
abbrev Interp.Ok (x : Interp) : Prop :=
  (x.conv = none ∨ x.sample = none)
    ∧ x.coarse.length ≤ 14
    ∧ (∀ t ∈ x.table, binSum t = Config.tableSum)
    ∧ (∀ v ∈ x.conv, ∀ t ∈ v.table, binSum t = Config.tableSum)
    ∧ (∀ c ∈ x.collection, binSum c.bins = c.samples ∧ c.samples < Config.tableSum)
    ∧ (x.sample.isSome → x.collection.isSome)

/-- Every interpolator is good. -/
abbrev State.InterpsOk (s : State) : Prop := ∀ i : Fin 13, s.interps[i].Ok

/-! ## The lines (04 R73, R75) -/

/-- A line is DISABLED exactly while its enable is OFF; while the core runs, block lock is held exactly in QUIET
and LIVE, the quiet timer runs exactly in LIVE once a frame has ended, and a frame is in progress in no line
without block lock; no frame is open after another; a frame that is ready is handed off at once. -/
abbrev Line.Ok (running : Bool) (x : Line) : Prop :=
  (x.state = .disabled ↔ x.settings.enable = false)
    ∧ 1 ≤ x.settings.quietMs ∧ x.settings.quietMs ≤ 10000
    ∧ (running = true → (x.lock = true ↔ x.receiving = true) ∧ (x.quiet.isSome ↔ x.state = .live))
    ∧ (x.frames.any Frame.ready = false)
    ∧ (x.frames.countP Frame.isOpen ≤ 1)
    ∧ (running = true → x.receiving = false → x.frames.any Frame.isOpen = false)

/-- Every line is good. -/
abbrev State.LinesOk (s : State) : Prop := ∀ l : Fin 8, s.lines[l].Ok s.running

/-! ## The channel table and the windows (05 R93, 06 R108, R110, R123) -/

/-- A window without a base is empty; with one, the highest marked sequence is in it and marked, and a gap
deadline is armed, at a known tick, exactly while there is a hole. -/
abbrev PairWindow.Ok (w : PairWindow) : Prop :=
  w.slots.length = 64 ∧ w.stale < 64
    ∧ (w.base = none → w = PairWindow.empty)
    ∧ (w.base.isSome → w.highest.isSome ∧ w.top < 64)
    ∧ (w.deadline.isSome ↔ w.hasHole = true)
    ∧ w.armedAt.isSome = w.deadline.isSome

/-- The stored indexes rise, no two entries hold one key, each scope fits its pair's mode, each window is
good. -/
abbrev State.TableOk (s : State) : Prop :=
  (s.channels.map Prod.fst).Pairwise (· < ·)
    ∧ (∀ q ∈ s.channels, q.1 < 512 ∧ 1 ≤ q.2.gapUs ∧ q.2.gapUs ≤ 10000 ∧ s.scopeFits q.2.scope = true ∧ q.2.win.Ok)
    ∧ s.channels.Pairwise fun q r => r.2.hasKey q.2.scope q.2.addr q.2.port = false

/-! ## The marker inputs (07 R133, R135) -/

/-- The log holds at most four records, and at most 14 edges wait for their stamps; an input that is OFF has no
candidate; a candidate leads away from the qualified level. -/
abbrev Marker.Ok (y : Marker) : Prop :=
  y.log.length ≤ 4 ∧ y.waiting.length ≤ 14 ∧ (y.settings.select = .off → y.candidate = none)
    ∧ (∀ c ∈ y.candidate, edgeLevel c.dir ≠ y.qualified)

/-- Every marker input is good, and the counts of the pending sets are in their range. -/
abbrev State.MarkersOk (s : State) : Prop :=
  (∀ m : Fin 4, s.markers[m].Ok) ∧ ∀ p : Fin 3, ∀ m : Fin 4, s.markerPending[p][m] ≤ 255

/-! ## The ports (09 R165, R166, R169, R170; 08 R155, R157) -/

/-- The replies that wait at a port are of the two reply types (11.6). -/
abbrev Port.RepliesOk (q : Port) : Prop := ∀ c ∈ q.cmds, ∀ i ∈ c.reply, i.type ≤ 2

/-- What a port in each state holds. -/
abbrev Port.Ok (q : Port) : Prop :=
  (q.silenceTimer.isSome ↔ q.silent = true)
    ∧ (q.holdTimer.isSome ↔ q.state = .held)
    ∧ (q.hbTimer.isSome ↔ q.inService = true ∧ q.pacing.heartbeat ≠ 0)
    ∧ (q.lagging = true → q.hasRoom = false)
    ∧ (q.inService = false → q.credits = 0 ∧ q.queue = [] ∧ q.notices = [] ∧ q.hbPending = false)
    ∧ (q.state = .down → q.cmds = [] ∧ q.tx = none ∧ q.attention = 0)
    ∧ q.credits ≤ maxCredits ∧ q.cmds.length ≤ commandQueueSize
    ∧ (q.notices.map fun n => n.body.kind).Nodup
    ∧ (∀ n ∈ q.notices, 1 ≤ n.repeats ∧ n.repeats ≤ 65535)
    ∧ 1 ≤ q.pacing.holdMs ∧ q.pacing.holdMs ≤ 1000 ∧ q.RepliesOk

/-- Every port is good. -/
abbrev State.PortsOk (s : State) : Prop := ∀ p : Fin 3, s.ports[p].Ok

/-- While RSTN is asserted every port is DOWN and every line DARK or DISABLED (10 R189). -/
abbrev State.RstnOk (s : State) : Prop :=
  s.rstnAsserted = true →
    (∀ p : Fin 3, s.ports[p].state = .down) ∧ ∀ l : Fin 8, s.lines[l].receiving = false

/-! ## The record store (08 R145, R152, R153) -/

/-- Every quota is one that Set Quota can give, and the commitments never pass the store. -/
abbrev State.QuotasOk (s : State) : Prop :=
  (∀ p : Fin 3, 256 ≤ s.ports[p].quota ∧ s.ports[p].quota % 256 = 0) ∧ s.commitmentSum ≤ Config.poolSize

/-- The queues that hold an entry. -/
def State.holders (id : Nat) (s : State) : Nat := allPorts.countP fun p => s.ports[p].queue.contains id

/-- An entry is LIVE exactly while some queue holds it, with one reference for each. -/
abbrev State.PoolOk (s : State) : Prop :=
  (s.pool.entries.map PoolEntry.id).Pairwise (· < ·)
    ∧ (∀ e ∈ s.pool.entries, e.id < s.pool.next ∧ 1 ≤ e.refs ∧ e.refs = s.holders e.id)
    ∧ (∀ p : Fin 3, s.ports[p].queue.Pairwise (· < ·)
        ∧ ∀ id ∈ s.ports[p].queue, id ∈ s.pool.entries.map PoolEntry.id)

/-! ## The monitor (10 R183) -/

/-- Counts are in their ranges; a core that does not run has SECP low and INVALID or a stop behind it; the RSTN
latch is empty while the core runs. -/
abbrev State.MonitorOk (s : State) : Prop :=
  s.mon.rc ≤ Config.startupCycles ∧ s.mon.good ≤ Config.goodCycles ∧ s.mon.noTick ≤ Config.stopCycles
    ∧ (s.running = false → s.secp = false)
    ∧ (s.running = false → s.mon.phase ≠ .stopped → s.mon.invalid = true)
    ∧ (s.running = true → s.mon.latched = false)
    ∧ (s.mon.latchReleased = true → s.mon.latched = true)
    ∧ (s.mon.phase ≠ .startup → s.mon.vio = true)

end Sys2Proof.Machine
end

