-- ==== Sys2Proof/Certificates/Slice0/Obligations.lean ====
section
/-! DEFINITION. What is claimed of the block. A statement about a command says what `exec` answers, as an
equation between whole states wherever it can: what the equation does not write is unchanged. -/

namespace Sys2Proof.Machine

/-- The core runs and the command that port `p` holds for its owner is `k` (09 R175). Which command that is, one left
over from before the port went DOWN first, is the model's choice (log entry 10). -/
abbrev State.Holds (s : State) (p : Fin 3) (k : Command) : Prop :=
  s.running = true
    ∧ (s.ports[p].takeable.bind fun c => if c.parts.isNone then parseCommand c.bytes else none) = some k

/-- The reply to the command that port `p` holds is formed (09 R175), at the step that takes it, which is the model's
choice (log entry 35). -/
abbrev State.answered (s : State) (p : Fin 3) (r : Reply) : State := s.updPort p (Port.answer r)

/-- A reply that carries no reading. -/
abbrev reply (c : ReplyCode) (data : List Byte) : Reply := { code := c, time := none, data := data }

/-- The code of a command carried out, by whether every value was in its range. -/
abbrev doneIf (inRange : Prop) [Decidable inRange] : ReplyCode := if inRange then .done else .doneClamped

/-- The reply of a command refused in its owner's state. -/
abbrev refusal : Reply := .bare .refusedState

/-- A block has taken its part of the Reset Port of port `p`, of which `y` has now been taken: with the last part
the reply is formed and carries the quota in force and the sum of the quotas (09 R181, 11 R192). -/
abbrev State.partTaken (s : State) (p : Fin 3) (y : ResetParts) : State :=
  let t := s.updPort p fun q => q.updParts fun c => { c with parts := some y }
  if y.engine && y.marker && y.pool then
    t.answered p (reply .done (toBytes 2 t.ports[p].quota ++ toBytes 2 t.quotaSum))
  else t

/-- A port that has left service: credits, timers, queue, notices and heartbeat gone (09 R169). -/
abbrev Port.outOfService (q : Port) (st : PortState) (cause : DetachCause) : Port :=
  { q with state := st, cause := cause, credits := 0, holdTimer := none, queue := [], notices := []
           hbTimer := none, hbPending := false }

/-- The level after Subscribe or Unsubscribe of a level code, 1 for LEADERS and 2 for ALL (05 R101). -/
abbrev levelAfter (subscribe : Bool) (code : Nat) (before : Level) : Level :=
  if subscribe then (if code = 1 then .leaders else .all)
  else if code = 1 then .none
  else if before = .all then .leaders else before

/-- The table with the level of port `p` changed from index `a` to index `b`. -/
abbrev levelsChanged (p : Fin 3) (a b : Nat) (f : Level → Level) (t : List (Nat × Entry)) : List (Nat × Entry) :=
  tableMap (fun i e => if a ≤ i ∧ i ≤ b then { e with levels := e.levels.set p (f e.levels[p]) } else e) t

/-- The bookkeeping of a core tick beside the counter: the tick number, the edges taken at a tick, the no-tick
run. -/
abbrev State.nextTick (s : State) : State :=
  { (s.mapInterps fun x => { x with captured := 0 }).mapMarkers fun y => { y with rawSeen := 0 } with
      tick := s.tick + 1, mon := { s.mon with noTick := 0 } }

/-! ## Events of the discipline controller -/

/-- The class or the suspect flag of the controller has changed from `s` to `t`. -/
abbrev State.Changed (s t : State) : Prop := ¬(t.disc.state = s.disc.state ∧ t.disc.suspect = s.disc.suspect)

/-- The ports after an event that leads from `s` to `t` has raised some notices in this order, and then QUALITY with
the class before the tick and the class and flag after it, if they have changed. Where a QUALITY notice has been
raised at this tick already it is amended instead, which is the model's choice (02 R52, R54; log entry 7). -/
abbrev State.raised (s t : State) (bs : List NoticeBody) : State :=
  let u := sweep State.notifyAll bs s
  if ¬ s.Changed t then u
  else match s.disc.qualityAt with
    | some (n, before) =>
      if n = s.tick then u.mapPorts fun _ p => p.amend (.quality before t.disc.state t.disc.suspect)
      else u.notifyAll (.quality s.disc.state t.disc.state t.disc.suspect)
    | none => u.notifyAll (.quality s.disc.state t.disc.state t.disc.suspect)

/-- SECP has fallen at this tick, and the value is now below the width it fell by: the fall is taken back, since it
goes by the value after every correction of the tick, which is the model's reading (01 R19; log entry 18). -/
abbrev State.secpBack (s t : State) : Prop := ∃ f ∈ s.secpFell, f.tick = s.tick ∧ t.time.ns < f.width

/-- An event of the controller that leads from `s` to `t` and raises some notices changes nothing but the counter, the
controller and the notices, and SECP where its fall of this tick is taken back; the readings taken at its tick become
the reading after it, which is the model's reading of 01 R7 and R15 (log entry 6). -/
abbrev State.IsEvent (s t : State) (bs : List NoticeBody) : Prop :=
  t = { s.rereadAs t.reading with
        time := t.time, rolled := t.rolled, disc := t.disc, ports := ((s.raised t bs).rereadAs t.reading).ports
        secp := s.secp || decide (s.secpBack t)
        secpFell := if s.secpBack t then none else s.secpFell }
    ∧ t.disc.qualityAt =
        if s.Changed t ∧ s.disc.qualityAt.map Prod.fst ≠ some s.tick then some (s.tick, s.disc.state)
        else s.disc.qualityAt

/-- The counter after a change of the increment alone (01 R3). -/
abbrev State.CountsWith (s t : State) (inc : Nat) : Prop :=
  t.time = (s.setIncrement inc).time ∧ t.rolled = (s.setIncrement inc).rolled

/-- The terms after an update by a pulse error (02 R29). -/
abbrev Discipline.updated (d : Discipline) (e : Int) : Discipline :=
  { d with
    rate := max (-200000) (min 200000 (d.rate - roundHalfAway e (2 ^ d.settings.a)))
    slew := max (-(d.settings.slewLimit : Int)) (min d.settings.slewLimit (-(roundHalfAway e (2 ^ d.settings.b)))) }

/-- The controller as it enters SETTLING with a good-pulse count and a reference instant. -/
abbrev Discipline.settling (d : Discipline) (good : Nat) (i : Deadline) : Discipline :=
  { d with state := .settling, suspect := false, good := good, faults := 0, reacquired := 0, age := 0
           instant := some i, expected := none, window := none, silence := some { i with sec := i.sec + 2 } }

/-- The pulse makes an update and leads to SETTLING (02 R34, R35, R38, R42). -/
abbrev State.UpdatesInto (s t : State) (q : Pulse) (good : Nat) (bs : List NoticeBody) : Prop :=
  t.disc = { (s.disc.updated q.e).settling good q.stamp.time with qualityAt := t.disc.qualityAt }
    ∧ s.CountsWith t (increment t.disc.rate t.disc.slew) ∧ s.IsEvent t bs

/-- The pulse makes a step and leads to SETTLING with a good-pulse count of 0 (02 R31). -/
abbrev State.StepsInto (s t : State) (q : Pulse) (bs : List NoticeBody) : Prop :=
  t.disc = { ({ s.disc with slew := 0 } : Discipline).settling 0
      { sec := q.nominal, ns := 0, sub := 0, epoch := s.time.epoch + 1 } with qualityAt := t.disc.qualityAt }
    ∧ t.time = (s.correct q.ex).time ∧ t.rolled = (s.correct q.ex).rolled
    ∧ s.IsEvent t (bs ++ [.timescale .step s.time.epoch (s.time.epoch + 1) (-q.ex) none .settling])

/-- A fault clears the slew and raises REFERENCE with the state after it (02 R30, R36, R40, R53). -/
abbrev State.Faults (s t : State) (d : Discipline) (kind : ReferenceKind) (pulse : Option (Int × Stamp)) : Prop :=
  t.disc = { d with slew := 0, qualityAt := t.disc.qualityAt }
    ∧ s.CountsWith t (increment s.disc.rate 0) ∧ s.IsEvent t [.reference kind t.disc.state pulse]

/-- The controller after a fault in SETTLING: the first leaves the state, a second in a row enters FREERUN
(02 R36). -/
abbrev Discipline.settlingFaulted (d : Discipline) : Discipline :=
  if d.faults = 0 then { d with faults := 1 }
  else { d with state := .freerun, faults := 0, good := 0, silence := none }

/-- The controller after a fault in LOCKED: the first sets the suspect flag, a second without a good pulse between
enters HOLDOVER with the window re-formed around the expected second at four times W (02 R40, R41). -/
abbrev Discipline.lockedFaulted (d : Discipline) (epoch : BitVec 8) : Discipline :=
  if d.suspect = false then { d with suspect := true }
  else { d with state := .holdover, suspect := false, reacquired := 0, age := 0
                window := d.expected.map fun x => windowAround x.sec (4 * d.settings.windowNs) epoch }

/-- The controller with the window around a second of `k` times W (02 R37). -/
abbrev Discipline.expecting (d : Discipline) (sec k : Nat) (epoch : BitVec 8) : Discipline :=
  { d with
    expected := some { sec := sec, epoch := epoch }
    window := some
      { openAt := { sec := sec - 1, ns := 1000000000 - k * d.settings.windowNs, sub := 0, epoch := epoch }
        closeAt := { sec := sec, ns := k * d.settings.windowNs, sub := 0, epoch := epoch } } }

/-- A conversion of the reference input ends: the pulse that reaches the controller is `q`, formed with no
compensation, and `u` is the state in which the controller takes it (02 R26, R27; 03 R59). -/
abbrev State.PulseEnds (s : State) (k : Fin 32) (q : Pulse) (u : State) : Prop :=
  s.running = true ∧ ∃ v, (s.interp .ref).conv = some v ∧ v.cap.tick + 7 ≤ s.tick
    ∧ q = judgePulse (assembleStamp v.cap.reading (match v.table with | some w => fineOffset w k | none => 320) 0
        v.table.isNone)
    ∧ u = s.updInterp .ref fun x => { x with conv := none, lastEnd := some s.tick }

/-! ## Layouts (11) -/

/-- A field of a layout: its first byte, its length, its number. -/
abbrev Field := Nat × Nat × Int

/-- The number in `k` bytes from byte `i` on, most significant byte first. -/
abbrev numberAt (i k : Nat) (bs : List Byte) : Nat := ((bs.drop i).take k).foldl (fun n b => n * 256 + b.toNat) 0

/-- The number whose bits are the flags, the first as bit 0. -/
abbrev bitsNat (flags : List Bool) : Nat := flags.foldr (fun b n => b.toNat + 2 * n) 0

/-- Some bytes are laid out in fields: so many bytes, and each field holds its number, most significant byte first and,
below zero, in two's complement. -/
abbrev LaysOut (bs : List Byte) (length : Nat) (fields : List Field) : Prop :=
  bs.length = length ∧ ∀ f ∈ fields, (numberAt f.1 f.2.1 bs : Int) = f.2.2 % 256 ^ f.2.1

/-- The parts of a table of fields, one after another. -/
abbrev fields (parts : List (List Field)) : List Field := parts.flatten

/-- The stamp field at byte `i` (11.1). -/
abbrev stampFields (i : Nat) (st : Stamp) : List Field :=
  [(i, 5, st.sec), (i + 5, 4, st.ns), (i + 9, 1, st.sub), (i + 10, 1, st.epoch.toNat),
   (i + 11, 1, st.quality.code + 8 * bitsNat [st.invalid, st.suspect, st.coarse, st.clamped])]

/-- The kind and the number of a scope (11.6). -/
abbrev scopeCodes : Scope → Nat × Nat
  | .pair p => (0, p.val)
  | .line l => (1, l.val)

/-- Sequence mode, sequence offset, byte order and count offset of a format; what it stores absent is zero (11.6). -/
abbrev formatCodes : SeqFormat → Nat × Nat × Nat × Nat
  | .none => (0, 0, 0, 0)
  | .packet off o => (1, off.toNat, o.code, 0)
  | .message off o cnt => (2, off.toNat, o.code, cnt.toNat)

/-- The fields of a record item (11.2). -/
abbrev recordFields : Record → List Field
  | .arrival r => fields
    [[(0, 2, r.index), (2, 1, r.cls.code), (3, 1, r.line.val),
      (4, 1, bitsNat [r.overtook, r.acrossEpoch, r.rangeCut, r.rebased, r.seq.isSome, r.count.isSome, r.lag.isSome,
        r.marks.isSome])],
     stampFields 5 r.stamp,
     [(17, 2, r.length), (19, 1, r.verdict.code), (20, 1, r.count.getD 0), (21, 4, (r.seq.getD 0).toNat),
      (25, 4, r.lag.getD 0), (29, 1, (r.marks.getD (0, 0)).1), (30, 1, (r.marks.getD (0, 0)).2), (31, 1, 0)]]
  | .gap r => fields
    [[(0, 2, r.index), (2, 1, r.cause.code), (3, 1, bitsNat [r.count.isSome])], stampFields 4 r.stamp,
     [(16, 4, r.first.toNat), (20, 4, r.count.getD 0), (24, 4, r.baseAfter.toNat), (28, 4, 0)]]
  | .unmapped r => fields
    [[(0, 1, r.line.val), (1, 1, r.cause.code), (2, 1, bitsNat [r.key.isSome]), (3, 1, r.verdict.code),
      (4, 2, r.length)],
     stampFields 6 r.stamp,
     [(18, 4, ((r.key.map Key.addr).getD 0).toNat), (22, 2, ((r.key.map Key.port).getD 0).toNat), (24, 8, 0)]]
  | .marker r => fields
    [[(0, 1, r.input.val), (1, 1, Direction.code r.dir), (2, 4, r.count.toNat)], stampFields 6 r.stamp, [(18, 14, 0)]]

/-- The code of a notice kind (11.6). -/
abbrev noticeKind : NoticeBody → Nat
  | .timescale .. => 0
  | .quality .. => 1
  | .invalid .. => 2
  | .reference .. => 3
  | .settings .. => 4
  | .line .. => 5
  | .loss .. => 6
  | .holdExpired .. => 7

/-- The kind and the number of a shared record that SETTINGS names (11.3, 11.6). -/
abbrev recordCodes : SettingsRecord → Nat × Nat
  | .discipline => (0, 0)
  | .line l => (1, l.val)
  | .marker m => (2, m.val)
  | .pairMode p => (3, p.val)
  | .channel i => (4, i.val)

/-- The fields of a notice item: the repeat count, but in LOSS, and the values of its kind (11.3). -/
abbrev noticeFields (n : Notice) : List Field :=
  match n.body with
  | .timescale kind old new amount label after =>
    [(0, 2, n.repeats), (2, 1, kind.code), (3, 1, old.toNat), (4, 1, new.toNat), (5, 1, after.code), (6, 8, amount),
     (14, 5, label.getD 0), (19, 1, bitsNat [label.isSome]), (20, 12, 0)]
  | .quality before after suspect =>
    [(0, 2, n.repeats), (2, 1, before.code), (3, 1, after.code), (4, 1, suspect.toNat), (5, 27, 0)]
  | .invalid cause =>
    [(0, 2, n.repeats), (2, 1, if cause.isSome then 0 else 1), (3, 1, (cause.map ReleaseCause.code).getD 0),
     (4, 1, bitsNat [cause.isSome]), (5, 27, 0)]
  | .reference kind state pulse => fields
    [[(0, 2, n.repeats), (2, 1, kind.code), (3, 1, state.code), (4, 1, bitsNat [pulse.isSome]),
      (5, 4, (pulse.map Prod.fst).getD 0)],
     match pulse with | some q => stampFields 9 q.2 | none => [(9, 12, 0)],
     [(21, 11, 0)]]
  | .settings record port =>
    [(0, 2, n.repeats), (2, 1, (recordCodes record).1), (3, 2, (recordCodes record).2), (5, 1, port.val), (6, 26, 0)]
  | .line l old new all => fields
    [[(0, 2, n.repeats), (2, 1, l.val), (3, 1, old.code), (4, 1, new.code), (13, 19, 0)],
     (List.finRange 8).map fun k => (5 + k.val, 1, all[k].code)]
  | .holdExpired timeout queueLen => [(0, 2, n.repeats), (2, 2, timeout), (4, 2, queueLen), (6, 26, 0)]
  | .loss count first last total => fields [[(0, 4, count), (4, 4, total)], stampFields 8 first, stampFields 20 last]

/-- The type of an item (11.6). -/
abbrev itemType : Item → Nat
  | .reply _ => 1
  | .timeReply _ _ _ => 1
  | .replyMore _ => 2
  | .record (.arrival _) => 3
  | .record (.gap _) => 4
  | .record (.unmapped _) => 5
  | .record (.marker _) => 6
  | .heartbeat _ => 7
  | .notice n => 16 + noticeKind n.body

/-- The fields of the values after the reading in the reply to Query Time (11.5). -/
abbrev timeFields (d : Discipline) : List Field :=
  [(0, 4, d.rate), (4, 4, d.slew), (8, 2, d.age), (10, 1, bitsNat [d.label.isSome]),
   (11, 5, (d.label.map PendingLabel.value).getD 0)]

/-- The ten counters of a channel in their order (05 R104). -/
abbrev countersOf (c : ChannelCounters) : List Nat :=
  [c.leaderA, c.leaderB, c.followers, c.repeats, c.late, c.stale, c.gaps, c.rebases, c.damaged, c.short]

/-- The fields of Read Channel for an OCCUPIED entry (11.5). -/
abbrev channelFields (i : Nat) (e : Entry) : List Field := fields
  [[(0, 1, 1), (1, 2, i), (3, 1, (scopeCodes e.scope).1), (4, 1, (scopeCodes e.scope).2), (5, 4, e.addr.toNat),
   (9, 2, e.port.toNat), (11, 1, (formatCodes e.fmt).1), (12, 1, (formatCodes e.fmt).2.1),
   (13, 1, (formatCodes e.fmt).2.2.1), (14, 1, (formatCodes e.fmt).2.2.2),
   (15, 1, bitsNat [e.fmt != .none, e.fmt matches .message _ _ _, e.win.base.isSome, e.win.highest.isSome,
     e.win.deadline.isSome]),
   (16, 2, e.gapUs), (18, 1, e.levels[0].code), (19, 1, e.levels[1].code), (20, 1, e.levels[2].code),
   (21, 4, (e.win.base.getD 0).toNat), (25, 4, (e.win.highest.getD 0).toNat)],
   match e.win.deadline with
   | some d => [(29, 5, d.sec), (34, 4, d.ns), (38, 1, d.sub), (39, 1, d.epoch.toNat)]
   | none => [(29, 11, 0)],
   [(40, 1, e.win.stale),
    (41, 1, e.win.slots.countP fun x => x matches .vacant), (42, 1, e.win.slots.countP fun x => x matches .seen _ _),
    (43, 1, e.win.slots.countP fun x => x matches .paired _ _), (44, 1, e.win.slots.countP fun x => x matches .lost),
    (45, 1, e.win.slots.countP fun x => x matches .recovered)],
   (List.range 10).map fun k => (46 + 4 * k, 4, (countersOf e.cnt)[k]?.getD 0)]

/-- The fields of Read Marker Log, the newest entry first (11.5). -/
abbrev logFields (m : Fin 4) (y : Marker) : List Field := fields
  [[(0, 1, m.val), (1, 1, y.settings.select.code), (2, 1, y.settings.width.val), (3, 2, y.settings.comp.toNat),
   (5, 4, y.count.toNat), (9, 4, y.glitches), (13, 1, y.log.length)],
   (List.range 4).flatMap fun k => match y.log[k]? with
    | some r => fields [[(14 + 17 * k, 1, Direction.code r.dir), (15 + 17 * k, 4, r.count.toNat)],
                        stampFields (19 + 17 * k) r.stamp]
    | none => [(14 + 17 * k, 17, 0)]]

/-- The fields of Read Status (11.5). -/
abbrev statusFields (p : Fin 3) (s : State) : List Field := fields
  [[(0, 1, s.ports[p].state.code), (1, 1, s.ports[p].permit.toNat), (2, 2, s.ports[p].credits),
   (4, 2, s.ports[p].queue.length), (6, 2, s.ports[p].quota),
   (8, 2, s.ports[0].quota + s.ports[1].quota + s.ports[2].quota), (10, 1, s.ports[p].lagging.toNat),
   (11, 1, s.ports[p].cause.code), (12, 4, s.ports[p].lossTotal), (16, 1, s.ports[p].pacing.heartbeat.val),
   (17, 1, s.ports[p].pacing.silence.val), (18, 2, s.ports[p].pacing.holdMs), (20, 2, s.ports[p].attention.toNat),
   (22, 1, s.disc.state.code), (23, 1, bitsNat [s.disc.suspect, s.mon.invalid, s.mon.good == 4096]),
   (24, 4, s.ports[p].counters.received), (28, 4, s.ports[p].counters.bad), (32, 4, s.ports[p].counters.dropped),
   (36, 4, s.ports[p].counters.refusals), (40, 4, s.ports[p].counters.framesSent),
   (44, 4, s.ports[p].counters.itemsSent), (48, 4, s.ports[p].counters.linkLosses)],
   (List.finRange 4).map fun m => (52 + m.val, 1, ((s.markerPending[p][m] : Nat) : Int)),
   (List.finRange 4).flatMap fun m =>
    [(56 + 8 * m.val, 4, s.markers[m].count.toNat), (60 + 8 * m.val, 4, s.markers[m].glitches)],
   (List.finRange 8).flatMap fun l =>
    [(88 + 17 * l.val, 1, s.lines[l].state.code), (89 + 17 * l.val, 4, s.lines[l].frameCount),
     (93 + 17 * l.val, 4, s.lines[l].damaged), (97 + 17 * l.val, 4, s.lines[l].unmapped),
     (101 + 17 * l.val, 4, s.lines[l].coarseCount)],
   (List.finRange 13).flatMap fun i =>
    [(224 + 9 * i.val, 4, s.interps[i].calibrations), (228 + 9 * i.val, 4, s.interps[i].busy),
     (232 + 9 * i.val, 1, bitsNat [s.interps[i].table.isSome, s.interps[i].collection.isSome])]]

/-- A row of the command table: the code, the argument length, whether the permit is needed, and the command that the
arguments give (11.4; 09 R178). -/
abbrev commandTable : List (Nat × Nat × Bool × (List Byte → Command)) :=
  [(1, 2, false, fun a => .attach (numberAt 0 2 a)),
   (2, 0, false, fun _ => .detach), (3, 0, false, fun _ => .hold), (4, 0, false, fun _ => .release),
   (5, 2, false, fun a => .grantCredits (numberAt 0 2 a)), (6, 2, false, fun a => .setQuota (numberAt 0 2 a)),
   (7, 4, false, fun a => .setPacing (numberAt 0 1 a) (numberAt 1 2 a) (numberAt 3 1 a)),
   (8, 5, false, fun a => .subscribe (numberAt 0 2 a) (numberAt 2 2 a) (numberAt 4 1 a)),
   (9, 5, false, fun a => .unsubscribe (numberAt 0 2 a) (numberAt 2 2 a) (numberAt 4 1 a)),
   (10, 1, false, fun a => .subscribeMarkers (BitVec.ofNat 4 (numberAt 0 1 a))),
   (11, 1, false, fun a => .subscribeUnmapped (BitVec.ofNat 8 (numberAt 0 1 a))),
   (12, 0, false, fun _ => .queryTime), (13, 0, false, fun _ => .readStatus),
   (14, 2, false, fun a => .readChannel (numberAt 0 2 a)), (15, 0, false, fun _ => .swapMarkers),
   (16, 1, false, fun a => .readMarkerLog (numberAt 0 1 a)), (17, 0, false, fun _ => .resetPort),
   (32, 16, true, fun a => .writeChannel (numberAt 0 2 a) (numberAt 2 1 a) (numberAt 3 1 a)
      (BitVec.ofNat 32 (numberAt 4 4 a)) (BitVec.ofNat 16 (numberAt 8 2 a)) (numberAt 10 1 a) (numberAt 11 1 a)
      (numberAt 12 1 a) (numberAt 13 1 a) (numberAt 14 2 a)),
   (33, 2, true, fun a => .removeChannel (numberAt 0 2 a)),
   (34, 2, true, fun a => .setPairMode (numberAt 0 1 a) (numberAt 1 1 a)),
   (35, 6, true, fun a => .writeLineSettings (numberAt 0 1 a) (numberAt 1 1 a) (BitVec.ofNat 16 (numberAt 2 2 a))
      (numberAt 4 2 a)),
   (36, 5, true, fun a => .writeMarkerSettings (numberAt 0 1 a) (numberAt 1 1 a) (numberAt 2 1 a)
      (BitVec.ofNat 16 (numberAt 3 2 a))),
   (37, 16, true, fun a => .writeDisciplineSettings (numberAt 0 4 a) (numberAt 4 1 a) (numberAt 5 1 a) (numberAt 6 1 a)
      (numberAt 7 1 a) (numberAt 8 1 a) (numberAt 9 1 a) (numberAt 10 1 a) (numberAt 11 1 a) (numberAt 12 1 a)
      (numberAt 13 1 a) (numberAt 14 1 a) (numberAt 15 1 a)),
   (38, 8, true, fun a => .labelNextPulse (numberAt 0 8 a)),
   (39, 4, true, fun a => .trimRate (BitVec.ofNat 32 (numberAt 0 4 a)).toInt),
   (40, 0, true, fun _ => .clearInvalid)]

/-! ## Frames of a line (04) -/

/-- What a frame's bytes before the FCS say: the type, a tag skipped, the IPv4 header at byte `h` with its checks in
their order, the port of the UDP header at byte `u`, and the payload; HEADER_CUT where the bytes end before what is
read next (04 R83 to R86). -/
abbrev parsed (d : List Byte) : Parse :=
  let h := if numberAt 12 2 d = 33024 then 18 else 14
  let u := h + 4 * (numberAt h 1 d % 16)
  let len := min (h + numberAt (h + 2) 2 d) d.length - (u + 8)
  if d.length < 14 then .unkeyed .headerCut
  else if numberAt 12 2 d ≠ 2048 ∧ numberAt 12 2 d ≠ 33024 then .unkeyed .notIpv4
  else if h = 18 ∧ d.length < 18 then .unkeyed .headerCut
  else if h = 18 ∧ numberAt 16 2 d = 33024 then .unkeyed .taggedTwice
  else if h = 18 ∧ numberAt 16 2 d ≠ 2048 then .unkeyed .notIpv4
  else if d.length < h + 1 then .unkeyed .headerCut
  else if numberAt h 1 d / 16 ≠ 4 then .unkeyed .notIpv4
  else if numberAt h 1 d % 16 < 5 then .unkeyed .badHeader
  else if d.length < h + 4 then .unkeyed .headerCut
  else if numberAt (h + 2) 2 d < 4 * (numberAt h 1 d % 16) + 8 then .unkeyed .badHeader
  else if d.length < h + 8 then .unkeyed .headerCut
  else if numberAt (h + 6) 2 d % 2 ^ 13 ≠ 0 then .unkeyed .fragment
  else if d.length < h + 10 then .unkeyed .headerCut
  else if numberAt (h + 9) 1 d ≠ 17 then .unkeyed .notUdp
  else if d.length < u + 4 then .unkeyed .headerCut
  else .keyed { addr := BitVec.ofNat 32 (numberAt (h + 16) 4 d), port := BitVec.ofNat 16 (numberAt (u + 2) 2 d) } len
    ((d.drop (u + 8)).take (min 259 len))

/-- The counters of a line after an arrival with a verdict and a stamp is handed off (04 R87). -/
abbrev Line.counted (v : Verdict) (st : Stamp) (x : Line) : Line :=
  { x with frameCount := satInc x.frameCount
           damaged := if v = .none then x.damaged else satInc x.damaged
           coarseCount := if st.coarse then satInc x.coarseCount else x.coarseCount }

/-- The frames of line `l` are those that wait for their stamps, in `before`, and then the open frame `f`. -/
abbrev State.OpenLast (l : Fin 8) (before : List Frame) (f : Frame) (s : State) : Prop :=
  (s.lines[l].state = .quiet ∨ s.lines[l].state = .live) ∧ s.lines[l].frames = before ++ [f] ∧ f.ended = none
    ∧ ∀ b ∈ before, b.ended ≠ none ∧ b.stamp = none

/-- The open frame `f` of line `l`, behind those that wait for their stamps, ends with its bytes and a verdict: the
line is LIVE with a new quiet timer, LINE raised where it was QUIET; the frame is handed off where its stamp is
present, and otherwise waits for it with its length, parse and verdict (04 R75, R77, R78, R87). -/
abbrev State.frameEnded (l : Fin 8) (before : List Frame) (f : Frame) (bytes : List Byte) (v : Verdict) (s : State) :
    State :=
  let parse := parseFrame (bytes.take (bytes.length - 4))
  let x := { s.lines[l] with state := .live, quiet := some (s.tick + s.lines[l].settings.quietMs * 400000) }
  let u := match f.stamp with
    | some st => { s with
        lines := s.lines.set l { x.counted v st with frames := before }
        arrivals := s.arrivals.set l (s.arrivals[l] ++
          [{ line := l, stamp := st, length := bytes.length, verdict := v, parse := parse }]) }
    | none => { s with
        lines := s.lines.set l { x with
          frames := before ++ [{ f with count := bytes.length, progress := parse.progress, fields := parse.fields
                                        ended := some v }] } }
  if s.lines[l].state = .live then u else u.notifyAll (.line l s.lines[l].state .live (s.lineStates.set l .live))

/-- A new frame opens on line `l` and presents its edge (04 R73, R78). -/
abbrev State.frameOpened (l : Fin 8) (s : State) : State :=
  State.updInterp (.line l) (fun x => { x with presented := x.presented ++ [s.edgeSeq] })
    { s.updLine l fun x => { x with frames := x.frames ++
        [{ edge := s.edgeSeq, captureTick := s.tick, comp := x.settings.comp, count := 0, progress := .header
           fields := [], stamp := none, ended := none }] } with edgeSeq := s.edgeSeq + 1 }

/-! ## The release of the core (10) -/

/-- The state of a line with nothing in flight: DARK where it is enabled, DISABLED where not (04 R92). -/
abbrev State.restState (s : State) (l : Fin 8) : LineState := if s.lines[l].settings.enable then .dark else .disabled

/-- A port after the notices of a release: INVALID with its cause, QUALITY where the class or the suspect flag changes,
and LINE for each line that changes, with the states of the lines so far (10 R188, 02 R52, 04 R77). A QUALITY raised at
that tick already is amended (log entry 7); the order is the model's choice (log entry 33). -/
abbrev State.toldOfRelease (s : State) (q : Port) : Port :=
  let q := q.notify (.invalid (some s.mon.cause))
  let q :=
    if s.disc.state = .unset ∧ s.disc.suspect = false then q
    else if s.disc.qualityAt.map Prod.fst = some (s.tick + 1) then
      q.amend (.quality ((s.disc.qualityAt.map Prod.snd).getD s.disc.state) .unset false)
    else q.notify (.quality s.disc.state .unset false)
  (List.finRange 8).foldl (fun q l =>
    if s.lines[l].state = s.restState l then q
    else q.notify (.line l s.lines[l].state (s.restState l)
      (.ofFn fun k => if k ≤ l then s.restState k else s.lines[k].state))) q

/-- The monitor with RSTN as it stands put back into its latch, where it was asserted in the core; that it is taken
again at the release is the model's choice (10 R189; log entry 29). -/
abbrev State.latching (s : State) : Monitor := { s.mon with
  latched := s.rstnAsserted || s.mon.latched
  latchReleased := if s.rstnAsserted then !s.rstnLow else s.mon.latchReleased }

/-! ## Accepted edges (07) -/

/-- A selected edge of marker input `m`, which stands as `y` but for its count and its log, is accepted with its stamp:
counted, logged, pending and in the attention summary (MARKER is its bit 8) at every port not DOWN, and its record
handed to the pool for the ports subscribed to the input (07 R140, R141, R142; 08 R161). -/
abbrev State.accepted (m : Fin 4) (y : Marker) (d : Direction) (st : Stamp) (s : State) : State :=
  let r : MarkerRecord := { input := m, dir := d, stamp := st, count := y.count + 1 }
  let pending (p : Fin 3) : Vector Nat 4 :=
    if s.ports[p].state = .down then s.markerPending[p]
    else s.markerPending[p].set m (min (s.markerPending[p][m] + 1) 255)
  let told (p : Fin 3) : Port := Port.settle s.tick
    (if s.ports[p].state = .down then s.ports[p]
    else { s.ports[p] with attention := s.ports[p].attention ||| 0b100000000#9 })
  { s with
    markers := s.markers.set m { y with count := y.count + 1, log := (r :: y.log).take 4 }
    markerPending := #v[pending 0, pending 1, pending 2]
    ports := #v[told 0, told 1, told 2]
    pool := { s.pool with fromMarkers := s.pool.fromMarkers ++
      [{ record := .marker r
         ports := #v[s.markerSubs[0].getLsbD m, s.markerSubs[1].getLsbD m, s.markerSubs[2].getLsbD m] }] } }

/-! ## Windows -/

/-- `rs` are the contiguous runs, in rising order, of the places below `n` at which `P` holds, each as its first place
and its length. -/
abbrev RunsOf (P : Nat → Prop) (n : Nat) (rs : List (Nat × Nat)) : Prop :=
  (∀ r ∈ rs, 1 ≤ r.2 ∧ r.1 + r.2 ≤ n)
    ∧ (∀ j, j < n → (P j ↔ ∃ r ∈ rs, r.1 ≤ j ∧ j < r.1 + r.2))
    ∧ rs.Pairwise fun a b => a.1 + a.2 < b.1

/-- The GAP records of some runs from a base on (06 R127). -/
abbrev gapsOf (i : Nat) (cause : GapCause) (base after : BitVec 32) (st : Stamp) (rs : List (Nat × Nat)) :
    List Record :=
  rs.map fun r => .gap { index := i, cause := cause, first := base + BitVec.ofNat 32 r.1, count := some r.2
                         baseAfter := after, stamp := st }

/-- The slots of a window that `c` sequences from place `d` on have marked, the first becoming `first`
(06 R114, R115). -/
abbrev MarksRange (a : Arrival) (d c : Nat) (first : Slot) (before after : Nat → Slot) : Prop :=
  ∀ j, j < 64 → after j =
    if j = d then first else if d < j ∧ j < d + c then markLater a.line a.stamp (before j) else before j

/-- The gap deadline after a take: none without a hole; one that was armed keeps its time; a new one is the arrival's
stamp and the gap timeout (06 R122, R123). -/
abbrev deadlineAfter (before : Option Deadline) (hole : Prop) [Decidable hole] (st : Stamp) (gapUs : Nat) :
    Option Deadline :=
  if hole then
    some (before.getD { sec := st.sec + (st.ns + gapUs * 1000) / 1000000000
                        ns := (st.ns + gapUs * 1000) % 1000000000, sub := st.sub, epoch := st.epoch })
  else none

/-- The arrival record of a sequenced arrival that is no STALE (06 R130). -/
abbrev markedRecord (i : Nat) (a : Arrival) (x : BitVec 32) (count : Option Nat) (m : Mark) (marks : Nat × Nat)
    (rebased : Bool) : ArrivalRecord :=
  { index := i, cls := m.cls, line := a.line, stamp := a.stamp, length := a.length, verdict := a.verdict
    seq := some x, count := count.map fun n => max 1 (min 64 n), lag := m.lag, marks := some marks
    overtook := m.overtook, acrossEpoch := m.acrossEpoch
    rangeCut := count.any (fun n => n < 1 || 64 < n), rebased := rebased }

/-- The offers of some GAP records of an entry: each to the ports whose level is not NONE, and none where no port's
is (05 R100). -/
abbrev gapOffers (e : Entry) (rs : List Record) : List Offer :=
  if e.levels = #v[.none, .none, .none] then []
  else rs.map fun r => { record := r
                         ports := #v[e.levels[0] != .none, e.levels[1] != .none, e.levels[2] != .none] }

end Sys2Proof.Machine

open Sys2Proof Sys2Proof.Machine

/-! ## The queue of commands -/

/-- A step takes the command at the front of the queue and runs it with the rest waiting; on an empty queue the
block idles, which is the model's choice (log entry 1). -/
def Obligations.StepRunsTheFrontCommand : Prop :=
  ∀ (c : Instr) (cs : List Instr) (s : State),
    step { s with pending := c :: cs } = exec c { s with pending := cs }
      ∧ step { s with pending := [] } = .next { s with pending := [] }

/-- Every command answers a next state in every state, and acts on everything but the queue: nothing stops the block,
and the commands behind it wait as they were. -/
def Obligations.EveryCommandAnswersAndKeepsTheQueue : Prop :=
  ∀ (c : Instr) (s : State), ∃ t, exec c s = .next t ∧ t.pending = s.pending

/-! ## Commands of the ports (09.3, 09.5, 09.9) -/

/-- Attach in DETACHED enters STREAMING with the carried credits and starts the heartbeat timer; in every other
state it is refused and changes nothing else (09 R167). -/
def Obligations.AttachStartsStreaming : Prop :=
  ∀ (p : Fin 3) (n : Nat) (s : State), s.Holds p (.attach n) →
    (s.ports[p].state = .detached →
      exec (.attach p) s = .next ((s.updPort p fun q =>
        { q with state := .streaming, credits := n,
                 hbTimer := q.pacing.heartbeatTicks.map fun k => s.tick + k }).answered p (.bare .done)))
    ∧ (s.ports[p].state ≠ .detached → exec (.attach p) s = .next (s.answered p refusal))

/-- Detach in service: DETACHED with cause COMMAND, the references of the queue released, the notices, the
heartbeat, the credits and the timers gone; the silence timer and the lagging condition follow from the port's
settling. Hold and Release move a port between STREAMING and HELD; the hold timer, started with the timeout in force,
ends HELD with a HOLD_EXPIRED notice. Granted credits are added up to 65,535; the reply carries the sum and says
whether it was cut. Each is refused elsewhere (09 R168, R169, R171). -/
def Obligations.DetachHoldReleaseAndGrantCredits : Prop :=
  ∀ (p : Fin 3) (n : Nat) (s : State),
    (s.Holds p .detach → s.ports[p].inService = true →
      exec (.detach p) s = .next (((s.releaseIds s.ports[p].queue).updPort p fun q =>
        q.outOfService .detached .command).answered p (.bare .done)))
    ∧ (s.Holds p .detach → s.ports[p].inService = false → exec (.detach p) s = .next (s.answered p refusal))
    ∧ (s.Holds p .hold → s.ports[p].state = .streaming →
      exec (.hold p) s = .next ((s.updPort p fun q =>
        { q with state := .held, holdTimer := some (s.tick + q.pacing.holdMs * 400000) }).answered p (.bare .done)))
    ∧ (s.Holds p .hold → s.ports[p].state ≠ .streaming → exec (.hold p) s = .next (s.answered p refusal))
    ∧ (s.Holds p .release → s.ports[p].state = .held →
      exec (.release p) s = .next ((s.updPort p fun q =>
        { q with state := .streaming, holdTimer := none }).answered p (.bare .done)))
    ∧ (s.Holds p .release → s.ports[p].state ≠ .held → exec (.release p) s = .next (s.answered p refusal))
    ∧ (∀ t, s.running = true → s.ports[p].state = .held → s.ports[p].holdTimer = some t → t ≤ s.tick →
      exec (.holdTimerExpiry p) s = .next (s.updPort p fun q =>
        ({ q with state := .streaming, holdTimer := none } : Port).notify
          (.holdExpired q.pacing.holdMs q.queue.length)))
    ∧ (s.Holds p (.grantCredits n) → s.ports[p].inService = true →
      exec (.grantCredits p) s = .next ((s.updPort p fun q =>
        { q with credits := min (q.credits + n) 65535 }).answered p
          (reply (doneIf (s.ports[p].credits + n ≤ 65535)) (toBytes 2 (min (s.ports[p].credits + n) 65535)))))
    ∧ (s.Holds p (.grantCredits n) → s.ports[p].inService = false →
      exec (.grantCredits p) s = .next (s.answered p refusal))

/-- The request is rounded down to a multiple of 256 and clamped, refused where the commitments would pass
16,384, and otherwise in force at once; the pool's part of a Reset Port restores 4,096 where the other two
commitments leave room for it and leaves the quota otherwise; a port's commitment is the greater of its quota and its
queue length (08 R152, R153). That the refused reply carries no data is the
model's choice (log entry 22): the layout of the replies is followed. -/
def Obligations.SetQuotaKeepsToTheStore : Prop :=
  ∀ (p : Fin 3) (n : Nat) (s : State),
    (s.Holds p (.setQuota n) → ∀ q, q = max 256 (min 16384 (n / 256 * 256)) →
      (16384 < max q s.ports[p].queue.length + s.otherCommitments p →
        exec (.setQuota p) s = .next (s.answered p (.bare .refusedCapacity)))
      ∧ (max q s.ports[p].queue.length + s.otherCommitments p ≤ 16384 →
        ∀ t, t = s.updPort p (fun x => { x with quota := q }) →
          exec (.setQuota p) s = .next (t.answered p
            (reply (doneIf (q = n)) (toBytes 2 q ++ toBytes 2 t.quotaSum)))))
    ∧ (∀ x, s.running = true → s.ports[p].resetParts = some x → x.pool = false →
      exec (.resetPortPoolPart p) s = .next
        ((if 4096 + s.otherCommitments p ≤ 16384 then s.updPort p fun q => { q with quota := 4096 } else s).partTaken p
          { x with pool := true }))
    ∧ s.quotaSum = s.ports[0].quota + s.ports[1].quota + s.ports[2].quota
    ∧ (∀ c : Fin 3 → Nat, c = (fun q => max s.ports[q].quota s.ports[q].queue.length) →
      c p + s.otherCommitments p = c 0 + c 1 + c 2)

/-- Set Pacing replaces the three settings with the hold timeout clamped; only a change of the heartbeat period
touches a timer, and that timer is the heartbeat's; codes that name no value are MALFORMED. The reply lays the settings
out as the arguments were, and the codes name the periods of 11.6, in core ticks of 2.5 ns (09 R179; 11 R192). -/
def Obligations.SetPacingReplacesTheSettings : Prop :=
  ∀ (p : Fin 3) (h ms si : Nat) (s : State), s.Holds p (.setPacing h ms si) →
    (∀ (hc : h < 12) (sc : si < 4) (n : Pacing),
      n = { heartbeat := ⟨h, hc⟩, holdMs := max 1 (min 1000 ms), silence := ⟨si, sc⟩ } →
      exec (.setPacing p) s = .next ((s.updPort p fun q =>
        { q with
          pacing := n
          hbTimer :=
            if n.heartbeat = q.pacing.heartbeat then q.hbTimer
            else if q.inService then n.heartbeatTicks.map fun k => s.tick + k else none }).answered p
        (reply (doneIf (max 1 (min 1000 ms) = ms)) n.bytes))
      ∧ LaysOut n.bytes 4 [(0, 1, h), (1, 2, n.holdMs), (3, 1, si)]
      ∧ n.heartbeatTicks = (if h = 0 then none else some (2 ^ (h - 1) * 400000))
      ∧ n.silenceTicks = [400000, 1600000, 6400000, 25600000].getD si 0)
    ∧ (12 ≤ h ∨ 4 ≤ si → exec (.setPacing p) s = .next (s.answered p (.bare .malformed)))

/-- The three commands that only read, and Read Status, which reports the attention summary and empties it: nothing
else changes but the reply. Query Time carries the reading of the tick before its other values. Read Channel shows the
entry after an expiry that is the next event of that entry; that a read is an event of its entry is the model's choice
(log entry 39), and so are the low 40 bits that stand for a gap deadline past the last second (log entry 28). The data
of each reply are laid out as its table says (09 R180, 05 R105, 07 R141, 08 R161; 01 R7, 06 R122; 11 R192). -/
def Obligations.ReadsChangeOnlyWhatTheySay : Prop :=
  ∀ (p : Fin 3) (i : Nat) (s : State),
    (s.Holds p .queryTime →
      exec (.queryTime p) s = .next (s.answered p { code := .done, time := some s.now, data := s.timeBytes }))
    ∧ (s.Holds p (.readChannel i) → i < 512 → ∀ t, t = s.overdue (fun k => k = i) →
      exec (.readChannel p) s = .next (t.answered p (reply .done (match tableGet i t.channels with
        | none => [0]
        | some e => e.readBytes i))))
    ∧ (s.Holds p (.readChannel i) → 512 ≤ i →
      exec (.readChannel p) s = .next (s.answered p (.bare .malformed)))
    ∧ (s.Holds p (.readMarkerLog i) → ∀ h : i < 4,
      exec (.readMarkerLog p) s = .next (s.answered p (reply .done (s.markers[i].logBytes ⟨i, h⟩))))
    ∧ (s.Holds p (.readMarkerLog i) → 4 ≤ i →
      exec (.readMarkerLog p) s = .next (s.answered p (.bare .malformed)))
    ∧ (s.Holds p .readStatus →
      exec (.readStatus p) s = .next ((s.updPort p fun q => { q with attention := 0 }).answered p
        (reply .done (s.statusBytes p))))
    ∧ LaysOut s.timeBytes 16 (timeFields s.disc)
    ∧ (∀ e : Entry, LaysOut (e.readBytes i) 86 (channelFields i e))
    ∧ (∀ (m : Fin 4) (y : Marker), LaysOut (y.logBytes m) 82 (logFields m y))
    ∧ LaysOut (s.statusBytes p) 341 (statusFields p s)

/-- The four parts of a Reset Port. The port's part leaves service, sets the cause, zeroes the loss total and the
counters, and hands the command on; each other block takes its part once; the reply is formed with the last part
and carries the quota in force (09 R181, 05 R103, 07 R142). The engine's part concerns every entry, so expiries that
are the next events of their entries come before it (06 R122), which is the model's choice (log entry 39). The pool's
part is in `SetQuotaKeepsToTheStore`. -/
def Obligations.ResetPortIsTakenInParts : Prop :=
  ∀ (p : Fin 3) (s : State),
    (s.Holds p .resetPort → ∀ t,
      t = (if s.ports[p].inService then
        (s.releaseIds s.ports[p].queue).updPort p fun q => q.outOfService .detached .reset
        else s) →
      exec (.resetPort p) s = .next (t.updPort p fun q =>
        ({ q with cause := .reset, lossTotal := 0, counters := .zero } : Port).updParts fun c =>
          { c with parts := some { engine := false, marker := false, pool := false } }))
    ∧ (∀ x t, s.running = true → s.ports[p].resetParts = some x → x.engine = false → t = s.overdue (fun _ => true) →
      exec (.resetPortEnginePart p) s = .next (State.partTaken
        { t with
          channels := tableMap (fun _ e => { e with levels := e.levels.set p .none }) t.channels
          unmapped := t.unmapped.set p 0 } p { x with engine := true }))
    ∧ (∀ x, s.running = true → s.ports[p].resetParts = some x → x.marker = false →
      exec (.resetPortMarkerPart p) s = .next (State.partTaken
        { s with
          markerSubs := s.markerSubs.set p 0
          markerPending := s.markerPending.set p (Vector.replicate 4 0) } p { x with marker := true }))

/-! ## Commands of the engine and of the marker unit (05, 07) -/

/-- Subscribe and Unsubscribe change the calling port's level in every OCCUPIED entry of the range and nothing
else; the reply carries how many there are; a bad range or level is MALFORMED. Subscribe Unmapped and Subscribe Markers
replace the calling port's set (05 R101, R102). An expiry that is the next event of an entry in the range comes before
the change of levels (06 R122); that the command is an event of those entries is the model's choice (log entry
39). -/
def Obligations.SubscriptionsAreTheCallingPorts : Prop :=
  ∀ (p : Fin 3) (a b l : Nat) (x : BitVec 8) (y : BitVec 4) (s t : State),
    t = s.overdue (fun i => a ≤ i && i ≤ b) →
    (a ≤ b ∧ b ≤ 511 ∧ (l = 1 ∨ l = 2) →
      ∀ r, r = reply .done (toBytes 2 (s.channels.countP fun q => a ≤ q.1 ∧ q.1 ≤ b)) →
      (s.Holds p (.subscribe a b l) → exec (.subscribe p) s = .next (State.answered
        { t with channels := levelsChanged p a b (levelAfter true l) t.channels } p r))
      ∧ (s.Holds p (.unsubscribe a b l) → exec (.unsubscribe p) s = .next (State.answered
        { t with channels := levelsChanged p a b (levelAfter false l) t.channels } p r)))
    ∧ (b < a ∨ 511 < b ∨ (l ≠ 1 ∧ l ≠ 2) →
      (s.Holds p (.subscribe a b l) → exec (.subscribe p) s = .next (s.answered p (.bare .malformed)))
      ∧ (s.Holds p (.unsubscribe a b l) → exec (.unsubscribe p) s = .next (s.answered p (.bare .malformed))))
    ∧ (s.Holds p (.subscribeUnmapped x) → exec (.subscribeUnmapped p) s =
      .next (State.answered { s with unmapped := s.unmapped.set p x } p (.bare .done)))
    ∧ (s.Holds p (.subscribeMarkers y) → exec (.subscribeMarkers p) s =
      .next (State.answered { s with markerSubs := s.markerSubs.set p y } p (.bare .done)))

/-- Swap Markers answers with the four counts as they stand and sets all four to 0, of the calling port alone
(07 R143). -/
def Obligations.SwapMarkersEmptiesThePendingSet : Prop :=
  ∀ (p : Fin 3) (s : State), s.Holds p .swapMarkers →
    exec (.swapMarkers p) s = .next (State.answered
      { s with markerPending := s.markerPending.set p #v[0, 0, 0, 0] } p
      (reply .done [byte s.markerPending[p][0], byte s.markerPending[p][1], byte s.markerPending[p][2],
                    byte s.markerPending[p][3]]))

/-- Write Channel: the checks in their order, and an accepted write, which replaces the entry whole, with an
empty window, counters 0, the levels kept for the same key alone, and SETTINGS raised (05 R96, R97). An expiry that is
the next event of the entry comes before the write (06 R122); that an accepted write alone is an event of its entry is
the model's choice (log entry 39). The codes name the scopes and formats of 11.6, the reply lays the entry out as the
arguments were, a key is scope, address and port together, and a scope fits its pair in the mode it needs; of the table
a write changes the one index (05 R93, R96; 11 R192). -/
def Obligations.WriteChannelReplacesTheEntry : Prop :=
  (∀ (p : Fin 3) (i kind num mode off ord cnt gap : Nat) (addr : BitVec 32) (port : BitVec 16) (s u : State),
    s.Holds p (.writeChannel i kind num addr port mode off ord cnt gap) → u = s.overdue (fun k => k = i) →
    (511 < i ∨ Scope.ofCodes kind num = none ∨ SeqFormat.ofCodes mode off ord cnt = none →
      exec (.writeChannel p) s = .next (s.answered p (.bare .malformed)))
    ∧ (∀ (h : i < 512) (sc : Scope) (f : SeqFormat),
      Scope.ofCodes kind num = some sc → SeqFormat.ofCodes mode off ord cnt = some f →
      (s.scopeFits sc = false ∨ (∃ q ∈ s.channels, q.1 ≠ i ∧ q.2.hasKey sc addr port = true) →
        exec (.writeChannel p) s = .next (s.answered p (.bare .refusedConflict)))
      ∧ (s.scopeFits sc = true → (∀ q ∈ s.channels, q.1 = i ∨ q.2.hasKey sc addr port = false) →
        ∀ e : Entry,
          e = { scope := sc, addr := addr, port := port, fmt := f, gapUs := max 1 (min 10000 gap)
                levels := match tableGet i s.channels with
                  | some old => if old.hasKey sc addr port then old.levels else #v[.none, .none, .none]
                  | none => #v[.none, .none, .none]
                win := .empty, cnt := .zero } →
          exec (.writeChannel p) s = .next (((State.notifyAll (.settings (.channel ⟨i, h⟩) p)
            { u with channels := tableSet i e u.channels })).answered p
              (reply (doneIf (e.gapUs = gap)) (e.writtenBytes i))))))
  ∧ (∀ (kind num : Nat) (sc : Scope), Scope.ofCodes kind num = some sc ↔ scopeCodes sc = (kind, num))
  ∧ (∀ (mode off ord cnt : Nat) (f : SeqFormat), SeqFormat.ofCodes mode off ord cnt = some f ↔
    ∃ o : ByteOrder, o.code = ord ∧ (mode = 0 ∧ f = .none ∨ mode = 1 ∧ f = .packet (BitVec.ofNat 8 off) o
      ∨ mode = 2 ∧ f = .message (BitVec.ofNat 8 off) o (BitVec.ofNat 8 cnt)))
  ∧ (∀ (i : Nat) (e : Entry), LaysOut (e.writtenBytes i) 16
    [(0, 2, i), (2, 1, (scopeCodes e.scope).1), (3, 1, (scopeCodes e.scope).2), (4, 4, e.addr.toNat),
     (8, 2, e.port.toNat), (10, 1, (formatCodes e.fmt).1), (11, 1, (formatCodes e.fmt).2.1),
     (12, 1, (formatCodes e.fmt).2.2.1), (13, 1, (formatCodes e.fmt).2.2.2), (14, 2, e.gapUs)])
  ∧ (∀ (e : Entry) (sc : Scope) (addr : BitVec 32) (port : BitVec 16),
    e.hasKey sc addr port = true ↔ e.scope = sc ∧ e.addr = addr ∧ e.port = port)
  ∧ (∀ (s : State) (q : Fin 4) (l : Fin 8), (s.scopeFits (.pair q) = true ↔ s.pairModes[q] = .paired)
    ∧ (q.val = l.val / 2 → (s.scopeFits (.line l) = true ↔ s.pairModes[q] = .independent)))
  ∧ (∀ (t : List (Nat × Entry)) (i : Nat) (e : Entry), (t.map Prod.fst).Pairwise (· < ·) →
    (tableGet i t = some e ↔ (i, e) ∈ t) ∧ ((tableSet i e t).map Prod.fst).Pairwise (· < ·)
    ∧ ∀ q, q ∈ tableSet i e t ↔ q = (i, e) ∨ q ∈ t ∧ q.1 ≠ i)

/-- Remove Channel makes an index EMPTY, with DONE and SETTINGS whether or not it was, an expiry that is the next event
of the entry coming before it (05 R98, 06 R122), which is the model's choice (log entry 39); Set Pair Mode sets the
mode of a pair, refused while an entry has a scope that the change would leave without a home, which is a PAIR scope of
that pair under INDEPENDENT and a LINE scope of one of its lines under PAIRED (05 R99). -/
def Obligations.RemoveChannelAndSetPairMode : Prop :=
  (∀ (p : Fin 3) (i m : Nat) (s u : State), u = s.overdue (fun k => k = i) →
    (s.Holds p (.removeChannel i) → ∀ h : i < 512,
      exec (.removeChannel p) s = .next ((State.notifyAll (.settings (.channel ⟨i, h⟩) p)
        { u with channels := u.channels.filter fun q => q.1 ≠ i }).answered p (.bare .done)))
    ∧ (s.Holds p (.removeChannel i) → 511 < i →
      exec (.removeChannel p) s = .next (s.answered p (.bare .malformed)))
    ∧ (s.Holds p (.setPairMode i m) → 3 < i ∨ 1 < m →
      exec (.setPairMode p) s = .next (s.answered p (.bare .malformed)))
    ∧ (s.Holds p (.setPairMode i m) → ∀ (h : i < 4) (mode : PairMode), PairMode.ofCode m = some mode →
      ((∃ q ∈ s.channels, orphanedBy ⟨i, h⟩ mode q.2 = true) →
        exec (.setPairMode p) s = .next (s.answered p (.bare .refusedConflict)))
      ∧ ((∀ q ∈ s.channels, orphanedBy ⟨i, h⟩ mode q.2 = false) →
        exec (.setPairMode p) s = .next ((State.notifyAll (.settings (.pairMode ⟨i, h⟩) p)
          { s with pairModes := s.pairModes.set i mode }).answered p (.bare .done)))))
  ∧ PairMode.ofCode 0 = some .paired ∧ PairMode.ofCode 1 = some .independent
  ∧ (∀ (q : Fin 4) (e : Entry), (orphanedBy q .independent e = true ↔ e.scope = .pair q)
    ∧ (orphanedBy q .paired e = true ↔ ∃ l : Fin 8, e.scope = .line l ∧ l.val / 2 = q.val))

/-! ## Shared settings (04 R74, 07 R134, R139, 02 R50, R51) -/

/-- Write Line Settings: the record is replaced with the quiet time clamped; a change of enable takes the line to DARK
or to DISABLED with everything in flight abandoned, LINE raised before SETTINGS, which is the model's choice (log entry
33); a line or an enable that names nothing is MALFORMED. Write Marker Settings: the record is replaced; a change of
edge select or width discards a candidate and takes the sampled level, which is the pin's level after the raw edges of
the tick taken so far, the model's choice (log entry 34); a change of the compensation alone does not. Each reply lays
the record out as the arguments were, and the codes name the edge selects and filter widths of 11.6 (11 R192). -/
def Obligations.LineAndMarkerSettingsAreReplaced : Prop :=
  ∀ (p : Fin 3) (l e ms m w : Nat) (comp : BitVec 16) (s : State),
    (s.Holds p (.writeLineSettings l e comp ms) → 7 < l ∨ 1 < e →
      exec (.writeLineSettings p) s = .next (s.answered p (.bare .malformed)))
    ∧ (s.Holds p (.writeLineSettings l e comp ms) → ∀ (h : l < 8) (r : LineSettings), e ≤ 1 →
      r = { enable := e = 1, comp := comp, quietMs := max 1 (min 10000 ms) } →
      ∀ t, t = (if s.lines[l].settings.enable = r.enable then s.updLine ⟨l, h⟩ fun x => { x with settings := r }
        else ((s.updLine ⟨l, h⟩ fun x => { x with settings := r }).updLine ⟨l, h⟩ fun x =>
          { x with lock := false, quiet := none, frames := [] }).setLineState ⟨l, h⟩
            (if r.enable then .dark else .disabled)) →
      exec (.writeLineSettings p) s = .next ((t.notifyAll (.settings (.line ⟨l, h⟩) p)).answered p
        (reply (doneIf (r.quietMs = ms)) (r.bytes ⟨l, h⟩))))
    ∧ (s.Holds p (.writeMarkerSettings m e w comp) → 3 < m ∨ 3 < e ∨ 3 < w →
      exec (.writeMarkerSettings p) s = .next (s.answered p (.bare .malformed)))
    ∧ (s.Holds p (.writeMarkerSettings m e w comp) → ∀ (h : m < 4) (hw : w < 4) (sel : EdgeSelect) (r : MarkerSettings),
      EdgeSelect.ofCode e = some sel → r = { select := sel, width := ⟨w, hw⟩, comp := comp } →
      exec (.writeMarkerSettings p) s = .next (((s.updMarker ⟨m, h⟩ fun y =>
        if y.settings.select = sel ∧ y.settings.width = ⟨w, hw⟩ then { y with settings := r }
        else { y with settings := r, candidate := none, qualified := y.level }).notifyAll
          (.settings (.marker ⟨m, h⟩) p)).answered p (reply .done (byte m :: r.bytes))))
    ∧ (∀ (k : Fin 8) (r : LineSettings), LaysOut (r.bytes k) 6
      [(0, 1, k.val), (1, 1, r.enable.toNat), (2, 2, r.comp.toNat), (4, 2, r.quietMs)])
    ∧ (∀ r : MarkerSettings, LaysOut (byte m :: r.bytes) 5
        [(0, 1, m), (1, 1, r.select.code), (2, 1, r.width.val), (3, 2, r.comp.toNat)]
      ∧ r.widthTicks = [0, 16, 64, 256].getD r.width.val 0)
    ∧ [0, 1, 2, 3].map EdgeSelect.ofCode = [some .off, some .rising, some .falling, some .both]

/-- Write Discipline Settings: the record is replaced with its numbers clamped; the slew in force is clamped to the new
limit and the increment formed anew, with the value and the rollover of the tick that the new increment gives; a change
of the calibration interval restarts or stops its timer; SECP falls if it is high beyond the new width, and a SECP that
is low stays low, but where the new increment takes the value of the tick back below the width by which it fell at that
tick (01 R19, R20); a code that names no value is MALFORMED and changes nothing. The codes name the thresholds, limits,
intervals and widths of 11.6, in nanoseconds, seconds and core ticks of 2.5 ns, and the reply lays the record out as
the arguments were (11 R192). How the tick adds the new increment, which readings of the tick follow it, and how a fall
of SECP at the same tick is judged again are the model's choices (log entries 5, 6 and 18). -/
def Obligations.WriteDisciplineSettingsReplacesTheRecord : Prop :=
  ∀ (p : Fin 3) (sl a b w lt lc rc st hl ci sw lo po : Nat) (s : State),
    s.Holds p (.writeDisciplineSettings sl a b w lt lc rc st hl ci sw lo po) →
    (4 ≤ w ∨ 4 ≤ lt ∨ 4 ≤ st ∨ 4 ≤ hl ∨ 4 ≤ ci ∨ 4 ≤ sw ∨ 4 ≤ lo ∨ 2 ≤ po →
      exec (.writeDisciplineSettings p) s = .next (s.answered p (.bare .malformed)))
    ∧ (∀ (hw : w < 4) (ht : lt < 4) (hs : st < 4) (hh : hl < 4) (hc : ci < 4) (he : sw < 4) (ls : LockoSource)
      (pol : Polarity), LockoSource.ofCode lo = some ls → Polarity.ofCode po = some pol →
      ∀ r : DisciplineSettings,
        r = { slewLimit := max 1 (min 100000 sl), a := min a 7, b := min b 7, window := ⟨w, hw⟩
              lockThreshold := ⟨lt, ht⟩, lockCount := max 2 (min 16 lc), reacquireCount := max 2 (min 16 rc)
              stepThreshold := ⟨st, hs⟩, holdoverLimit := ⟨hl, hh⟩, calInterval := ⟨ci, hc⟩, secpWidth := ⟨sw, he⟩
              lockoSource := ls, polarity := pol } →
      ∀ (slew : Int) (u t : State), slew = max (-(r.slewLimit : Int)) (min r.slewLimit s.disc.slew) →
        u = State.setIncrement (increment s.disc.rate slew)
          { s with
            disc := { s.disc with settings := r, slew := slew }
            secpFell := s.secpFell.map fun f => { f with width := min f.width r.secpNs }
            calExpiry :=
              if r.calInterval = s.disc.settings.calInterval then s.calExpiry
              else r.calTicks.map fun n => s.tick + n } →
        t = (if u.reread.secp = true ∧ r.secpNs ≤ u.time.ns then
          { u.reread with secp := false, secpFell := some { tick := s.tick, width := r.secpNs } } else u.reread) →
        exec (.writeDisciplineSettings p) s = .next ((t.notifyAll (.settings .discipline p)).answered p
          (reply (doneIf (r.slewLimit = sl ∧ r.a = a ∧ r.b = b ∧ r.lockCount = lc ∧ r.reacquireCount = rc))
            r.bytes))
        ∧ (s.secp = false → (∀ f ∈ s.secpFell, f.tick = s.tick → f.width ≤ u.time.ns) → t.secp = false))
    ∧ (∀ r : DisciplineSettings,
      r.windowNs = [1000, 10000, 100000, 1000000].getD r.window.val 0
      ∧ r.lockNs = [20, 50, 100, 500].getD r.lockThreshold.val 0
      ∧ r.stepNs = [1000, 10000, 100000, 1000000].getD r.stepThreshold.val 0
      ∧ r.holdoverSeconds = [10, 100, 1000, 10000].getD r.holdoverLimit.val 0
      ∧ r.calTicks = [none, some 400000000, some 4000000000, some 24000000000].getD r.calInterval.val none
      ∧ r.secpNs = [1000, 100000, 10000000, 100000000].getD r.secpWidth.val 0
      ∧ LaysOut r.bytes 16 [(0, 4, r.slewLimit), (4, 1, r.a), (5, 1, r.b), (6, 1, r.window.val),
          (7, 1, r.lockThreshold.val), (8, 1, r.lockCount), (9, 1, r.reacquireCount), (10, 1, r.stepThreshold.val),
          (11, 1, r.holdoverLimit.val), (12, 1, r.calInterval.val), (13, 1, r.secpWidth.val),
          (14, 1, r.lockoSource.code), (15, 1, r.polarity.code)])
    ∧ [0, 1, 2, 3].map LockoSource.ofCode
      = [some .locked, some .lockedOrHoldover, some .invalid, some .lineNotLive]
    ∧ [0, 1].map Polarity.ofCode = [some .activeHigh, some .activeLow]

/-- Label Next Pulse is refused while INVALID is set; otherwise it arms the label, clamped, with a rollover count of 0,
in place of any label pending (02 R44). Trim Rate is refused in SETTLING and LOCKED; in the other states the rate takes
the clamped value and the increment is formed anew, the slew staying as it is, with the value and the rollover of the
tick that the new increment gives (02 R47, 01 R3). How the tick adds it and which readings of the tick follow it are
the model's choices (log entries 5 and 6). -/
def Obligations.LabelNextPulseAndTrimRate : Prop :=
  ∀ (p : Fin 3) (v : Nat) (r : Int) (s : State),
    (s.Holds p (.labelNextPulse v) → s.mon.invalid = true →
      exec (.labelNextPulse p) s = .next (s.answered p refusal))
    ∧ (s.Holds p (.labelNextPulse v) → s.mon.invalid = false → ∀ n, n = min v (2 ^ 40 - 1) →
      exec (.labelNextPulse p) s = .next ((s.updDisc fun d =>
        { d with label := some { value := n, rollovers := 0 } }).answered p
          (reply (doneIf (n = v)) (toBytes 8 n))))
    ∧ (s.Holds p (.trimRate r) → s.disc.state = .settling ∨ s.disc.state = .locked →
      exec (.trimRate p) s = .next (s.answered p refusal))
    ∧ (s.Holds p (.trimRate r) → s.disc.state = .unset ∨ s.disc.state = .freerun ∨ s.disc.state = .holdover →
      ∀ (n : Int) (u : State), n = max (-200000) (min 200000 r) →
        u = State.setIncrement (increment n s.disc.slew) { s with disc := { s.disc with rate := n } } →
        exec (.trimRate p) s = .next (u.reread.answered p (reply (doneIf (n = r)) (toBytesInt 4 n))))

/-- Clear Invalid is refused while the clock-good count is incomplete; otherwise it clears INVALID with the notice
CLEARED, or does nothing where INVALID is already clear (02 R48). The readings taken at its tick before it carry
INVALID clear too, which is the model's choice (log entry 6). -/
def Obligations.ClearInvalidWaitsForTheClock : Prop :=
  ∀ (p : Fin 3) (s : State), s.Holds p .clearInvalid →
    (s.mon.good ≠ 4096 → exec (.clearInvalid p) s = .next (s.answered p (.bare .stillSettling)))
    ∧ (s.mon.good = 4096 → s.mon.invalid = true → ∀ t,
      t = (s.updMon fun m => { m with invalid := false }).notifyAll (.invalid none) →
      exec (.clearInvalid p) s = .next (t.reread.answered p (.bare .done)))
    ∧ (s.mon.good = 4096 → s.mon.invalid = false →
      exec (.clearInvalid p) s = .next (s.answered p (.bare .done)))

/-! ## The link (09.2, 09.5, 09.6) -/

/-- Command hand-over: the oldest WAITING command, where none is HANDED, is answered MALFORMED if it has no form,
answered REFUSED_PERMIT and counted if it needs a permit the port does not hold, and is HANDED otherwise (09 R175,
R177; 11 R191). That the form is judged before the permit is the model's choice (log entry 17). A command frame: too
short or with a bad CRC it is counted as bad; with a good CRC it restarts a running silence timer, and its command is
dropped where four are queued and joins the queue as WAITING otherwise (09 R174, R170). A frame has a form where its
code, its argument length and its arguments are those of a row of 11.4. A reply is kept with the command HANDED, which
is then ANSWERED, in as many items as its data need, and with no command that is left over from before the port went
DOWN, which comes first by the model's choice (log entry 10) (09 R166, R175, R178; 11 R192). -/
def Obligations.CommandFramesAndHandovers : Prop :=
  (∀ (p : Fin 3) (c : QueuedCommand) (bs : List Byte) (s : State), s.running = true → s.ports[p].state ≠ .down →
    (findCond .handed s.ports[p].cmds = none → findCond .waiting s.ports[p].cmds = some c →
      (parseCommand c.bytes = none →
        exec (.commandHandover p) s = .next (s.updPort p fun q =>
          { q with cmds := updFirst .waiting (QueuedCommand.answered (.bare .malformed)) q.cmds }))
      ∧ (∀ k, parseCommand c.bytes = some k → k.needsPermit = true → s.ports[p].permit = false →
        exec (.commandHandover p) s = .next (s.updPort p fun q =>
          { q with
            counters := { q.counters with refusals := satInc q.counters.refusals }
            cmds := updFirst .waiting (QueuedCommand.answered (.bare .refusedPermit)) q.cmds }))
      ∧ (∀ k, parseCommand c.bytes = some k → k.needsPermit = false ∨ s.ports[p].permit = true →
        exec (.commandHandover p) s = .next (s.updPort p fun q =>
          { q with cmds := updFirst .waiting (fun c => { c with cond := .handed }) q.cmds })))
    ∧ (bs.length < 6 ∨ crcGood bs = false →
      exec (.commandFrameReceived p bs) s = .next (s.updPort p fun q =>
        { q with counters := { q.counters with bad := satInc q.counters.bad } }))
    ∧ (6 ≤ bs.length → crcGood bs = true → ∀ timer,
      timer = (if s.ports[p].silent then some (s.tick + s.ports[p].pacing.silenceTicks)
        else s.ports[p].silenceTimer) →
      (4 ≤ s.ports[p].cmds.length →
        exec (.commandFrameReceived p bs) s = .next (s.updPort p fun q =>
          { q with silenceTimer := timer
                   counters := { q.counters with dropped := satInc q.counters.dropped } }))
      ∧ (s.ports[p].cmds.length < 4 →
        exec (.commandFrameReceived p bs) s = .next (s.updPort p fun q =>
          { q with
            silenceTimer := timer
            counters := { q.counters with received := satInc q.counters.received }
            cmds := q.cmds ++ [{ bytes := bs.take (bs.length - 4), cond := .waiting, parts := none
                                 reply := [] }] }))))
  ∧ (∀ (bs : List Byte) (k : Command), parseCommand bs = some k ↔
    ∃ row ∈ commandTable, ∃ a : List Byte, bs = byte row.1 :: byte row.2.1 :: a ∧ a.length = row.2.1
      ∧ k = row.2.2.2 a)
  ∧ (∀ (k : CommandCondition) (f : QueuedCommand → QueuedCommand) (before : List QueuedCommand) (c : QueuedCommand)
      (after : List QueuedCommand), (∀ b ∈ before, b.cond ≠ k) →
    findCond k before = none
    ∧ (c.cond = k → findCond k (before ++ c :: after) = some c
      ∧ updFirst k f (before ++ c :: after) = before ++ f c :: after))
  ∧ (∀ row ∈ commandTable, ∀ a : List Byte, (row.2.2.2 a).needsPermit = row.2.2.1)
  ∧ (∀ (r : Reply) (q : Port),
    (∀ o os, q.orphans = o :: os → Port.answer r q = { q with orphans := os })
    ∧ (∀ before c after, q.orphans = [] → q.cmds = before ++ c :: after → (∀ b ∈ before, b.cond ≠ .handed) →
      c.cond = .handed → Port.answer r q = { q with cmds := before ++
        { c with cond := .answered, parts := none, reply := replyItems (c.bytes.headD 0) r } :: after }))
  ∧ (∀ (code : Byte) (c : ReplyCode) (st : Stamp) (data : List Byte) (n : Nat),
    n = max 1 ((4 + data.length + 31) / 32) →
    replyItems code { code := c, time := some st, data := data } = [.timeReply [code, byte c.code, 1, 0] st data]
    ∧ (n ≤ 11 → ∀ is, is = replyItems code { code := c, time := none, data := data } →
      is.map Item.type = 1 :: List.replicate (n - 1) 2
      ∧ (is.map Item.bytes).flatten
        = [code, byte c.code, byte n, 0] ++ data ++ List.replicate (32 * n - (4 + data.length)) 0))
  ∧ [ReplyCode.done, .doneClamped, .refusedPermit, .refusedState, .refusedCapacity, .refusedConflict, .stillSettling,
      .malformed].map ReplyCode.code = List.range 8
  ∧ (∀ (k n : Nat) (z : Int), LaysOut (toBytes k n) k [(0, k, n)] ∧ LaysOut (toBytesInt k z) k [(0, k, z)])

/-- Link up takes a DOWN port to DETACHED, except while RSTN is asserted; link loss takes any other port to DOWN
with cause LINK, its queue released, everything in flight discarded but a command handed to another block, and its
pending marker counts at zero (09 R166, 07 R142). A loss while the core is frozen is kept for the release, in the form
of the model's choice (10 R185, log entry 24). The end of a link frame counts it and its items; a heartbeat timer makes
a heartbeat pending and starts again; a silence timer detaches the port with cause SILENCE (09 R172, 08 R162, 09 R170,
R169). -/
def Obligations.LinksFrameEndsAndPortTimers : Prop :=
  ∀ (p : Fin 3) (s : State),
    (s.running = true → s.rstnAsserted = false → s.ports[p].state = .down →
      exec (.linkUp p) s = .next (s.updPort p fun q => { q with state := .detached, linkLost := false }))
    ∧ (s.running = true → s.ports[p].state ≠ .down →
      exec (.linkLoss p) s = .next (State.updPort p
        (fun q => { q with cause := .link
                           counters := { q.counters with linkLosses := satInc q.counters.linkLosses } })
        { (s.releaseIds s.ports[p].queue).updPort p fun q =>
            { q.outOfService .down q.cause with
              cmds := [], tx := none, attention := 0, linkLost := false
              orphans := q.orphans ++ q.cmds.filter QueuedCommand.handedOn } with
          markerPending := s.markerPending.set p #v[0, 0, 0, 0] }))
    ∧ (s.running = false → s.ports[p].state ≠ .down →
      exec (.linkLoss p) s = .next (s.updPort p fun q => { q with linkLost := true }))
    ∧ (∀ x, s.running = true → s.ports[p].tx = some x →
      exec (.linkFrameEnd p) s = .next (s.updPort p fun q =>
        { q with tx := none, counters := { q.counters with
            framesSent := satInc q.counters.framesSent
            itemsSent := satAdd q.counters.itemsSent x.items.length } }))
    ∧ (∀ n, s.running = true → s.ports[p].hbTimer = some n → n ≤ s.tick →
      exec (.heartbeatTimerExpiry p) s = .next (s.updPort p fun q =>
        { q with hbPending := true, hbTimer := q.pacing.heartbeatTicks.map fun k => s.tick + k }))
    ∧ (∀ n, s.running = true → s.ports[p].state = .streaming → s.ports[p].silenceTimer = some n → n ≤ s.tick →
      exec (.silenceTimerExpiry p) s = .next ((s.releaseIds s.ports[p].queue).updPort p fun q =>
        q.outOfService .detached .silence))

/-- An IDLE transmitter takes up to eight items at one tick into a frame laid out from them. Replies come first and
cost nothing; every other item is taken in STREAMING alone and costs one credit (09 R172, R171). The frame has the
length of its header, items and CRC, and its CRC is good (11 R190). The replies waiting are of the two reply types, as
`EveryStepKeepsThePorts` says. Which items come is in `ItemsComeInTheirOrder`. That the frame is laid out whole at its
start is the model's choice (log entry 26). The header, the items and the CRC are laid out as 11.1 to 11.3 say, with
the codes of 11.6. -/
def Obligations.LinkFramesTakeEligibleItems : Prop :=
  (∀ (p : Fin 3) (items : List Item) (t s : State),
    s.running = true → s.ports[p].state ≠ .down → s.ports[p].tx = none → s.ports[p].RepliesOk →
    s.takeItems p 8 = (items, t) → items ≠ [] →
    exec (.linkFrameStart p) s = .next (t.updPort p fun q =>
        { q with tx := some { items := items, frame := linkFrame p items } })
      ∧ items.length ≤ 8
      ∧ t.ports[p].credits + items.countP (fun i => 2 < i.type) = s.ports[p].credits
      ∧ (s.ports[p].state ≠ .streaming → ∀ i ∈ items, i.type ≤ 2)
      ∧ (linkFrame p items).length = 16 + 32 * items.length ∧ crcGood (linkFrame p items) = true)
  ∧ (∀ (p : Fin 3) (items : List Item) (f : List Byte) (n : Nat), f = linkFrame p items → n = items.length → n ≤ 8 →
    LaysOut f (12 + 32 * n + 4) (fields [[(0, 1, n), (1, 1, p.val), (2, 2, (12 + 32 * n + 4 : Nat))],
      (List.range 8).map fun k => (4 + k, 1, (items[k]?.map itemType).getD 0)])
    ∧ (∀ k (h : k < items.length), (f.drop (12 + 32 * k)).take 32 = items[k].bytes)
    ∧ f.drop (12 + 32 * n) = crcBytes (f.take (12 + 32 * n)))
  ∧ (∀ r : Record, LaysOut (Item.record r).bytes 32 (recordFields r))
  ∧ (∀ n : Notice, LaysOut (Item.notice n).bytes 32 (noticeFields n))
  ∧ (∀ h : Heartbeat, LaysOut (Item.heartbeat h).bytes 32 (fields [stampFields 0 h.time,
    [(12, 2, h.age), (14, 2, h.queueLen), (16, 2, h.quota), (18, 1, h.lagging.toNat), (19, 4, h.lossTotal),
     (23, 9, 0)]]))
  ∧ (∀ (bs : List Byte) (st : Stamp) (head tail : List Byte),
    (bs.length ≤ 32 → (Item.reply bs).bytes = bs ++ List.replicate (32 - bs.length) 0
      ∧ (Item.replyMore bs).bytes = bs ++ List.replicate (32 - bs.length) 0)
    ∧ (head.length = 4 → tail.length = 16 → ∀ i, i = (Item.timeReply head st tail).bytes →
      i.take 4 = head ∧ i.drop 16 = tail ∧ LaysOut i 32 (stampFields 4 st)))
  ∧ (∀ i : Item, i.type = itemType i)
  ∧ [Quality.unset, .freerun, .settling, .locked, .holdover].map Quality.code = List.range 5
  ∧ [Verdict.none, .truncated, .oversize, .runt, .fcs].map Verdict.code = List.range 5
  ∧ [UnmappedCause.noChannel, .unkeyed .notIpv4, .unkeyed .taggedTwice, .unkeyed .badHeader, .unkeyed .fragment,
      .unkeyed .notUdp, .unkeyed .headerCut].map UnmappedCause.code = List.range 7
  ∧ [Classification.leader, .follower, .repeated, .late, .stale, .unsequenced, .damaged, .short].map
      Classification.code = List.range 8
  ∧ [GapCause.overrun, .timeout, .rebase].map GapCause.code = List.range 3
  ∧ [PortState.down, .detached, .streaming, .held].map PortState.code = List.range 4
  ∧ [LineState.disabled, .dark, .quiet, .live].map LineState.code = List.range 4
  ∧ [DetachCause.none, .command, .silence, .reset, .link].map DetachCause.code = List.range 5
  ∧ [TimescaleKind.step, .labelAtPulse, .labelAtFallback].map TimescaleKind.code = List.range 3
  ∧ [ReferenceKind.doublePulse, .noPulse, .outlier, .outOfWindow, .missedWindow, .reacquired].map ReferenceKind.code
      = List.range 6
  ∧ [ReleaseCause.powerOn, .supplyDip, .clockStop].map ReleaseCause.code = List.range 3
  ∧ [Level.none, .leaders, .all].map Level.code = List.range 3
  ∧ [ByteOrder.msbFirst, .lsbFirst].map ByteOrder.code = List.range 2
  ∧ [EdgeSelect.off, .rising, .falling, .both].map EdgeSelect.code = List.range 4
  ∧ [Direction.rising, .falling].map Direction.code = List.range 2
  ∧ [LockoSource.locked, .lockedOrHoldover, .invalid, .lineNotLive].map LockoSource.code = List.range 4
  ∧ [Polarity.activeHigh, .activeLow].map Polarity.code = List.range 2
  ∧ (∀ (bs : List Byte) (step : BitVec 32 → BitVec 32) (c : BitVec 32),
    step = (fun r => if r.getLsbD 0 then (r >>> 1) ^^^ BitVec.reverse 0x04C11DB7#32 else r >>> 1) →
    c = ~~~ (bs.foldl (fun r b => (List.range 8).foldl (fun r _ => step r) (r ^^^ b.setWidth 32)) 0xFFFFFFFF#32) →
    crcBytes bs = [c.extractLsb' 0 8, c.extractLsb' 8 8, c.extractLsb' 16 8, c.extractLsb' 24 8])

/-- The items of a link frame, one after another until none is eligible: the next item of the oldest reply, which
leaves the queue with its last item; then, in STREAMING and against a credit each, the notice at the front of the
pending list, the pending heartbeat, whose values are those of the tick it is taken, and the record at the front of the
queue, whose reference is released (09 R172, R175; 08 R150, R159, R163). -/
def Obligations.ItemsComeInTheirOrder : Prop :=
  ∀ (p : Fin 3) (q : Port) (s : State), q = s.ports[p] →
    (∀ (c : QueuedCommand) (cs : List QueuedCommand) (x : Item) (xs : List Item), q.cmds = c :: cs →
      c.cond = .answered → c.reply = x :: xs →
      s.takeItem p = some (x, s.updPort p fun y =>
        { y with cmds := if xs = [] then cs else { c with reply := xs } :: cs }))
    ∧ ((∀ c ∈ q.cmds.head?, c.cond ≠ .answered) →
      (∀ (n : Notice) (ns : List Notice), q.state = .streaming → 0 < q.credits → q.notices = n :: ns →
        s.takeItem p = some (.notice n, s.updPort p fun y => { y with notices := ns, credits := y.credits - 1 }))
      ∧ (q.state = .streaming → 0 < q.credits → q.notices = [] → q.hbPending = true →
        s.takeItem p = some (.heartbeat
            { time := s.now, age := s.disc.age, queueLen := q.queue.length, quota := q.quota, lagging := q.lagging
              lossTotal := q.lossTotal },
          s.updPort p fun y => { y with hbPending := false, credits := y.credits - 1 }))
      ∧ (∀ (e : PoolEntry) (ids : List Nat), q.state = .streaming → 0 < q.credits → q.notices = [] →
        q.hbPending = false → q.queue = e.id :: ids → e ∈ s.pool.entries →
        (s.pool.entries.map PoolEntry.id).Nodup →
        s.takeItem p = some (.record e.record,
          (s.releaseIds [e.id]).updPort p fun y => { y with queue := ids, credits := y.credits - 1 }))
      ∧ (q.state ≠ .streaming ∨ q.credits = 0 ∨ q.notices = [] ∧ q.hbPending = false ∧ q.queue = [] →
        s.takeItem p = none))
    ∧ (∀ n, (s.takeItem p = none → s.takeItems p (n + 1) = ([], s))
      ∧ ∀ x t, s.takeItem p = some (x, t) → s.takeItems p (n + 1) = (x :: (t.takeItems p n).1, (t.takeItems p n).2))

/-! ## The timescale (01) -/

/-- A core tick of a running core, after what was due has been taken, adds the increment to the time within the second:
below the end of the second; at the end of the last second, where the value stays at its maximum; and at any other end
of a second, which is a rollover whose effects then wait to be taken (01 R4, R5). Nothing that was due at the tick that
ends still stands: no rollover, conversion, sample or coarse edge at its end tick, no edge presented for which there is
room, no timer that has run out, no candidate whose tick has come with its stamp, no latched release of RSTN, no
arrival, no record not offered, no gap deadline reached, no fall of SECP; and a silence deadline or a close bound that
was reached, with no edge of the reference input in flight, is taken (01 R19, 02 R36, R39, 03 R58 to R60, R64, R67, 04
R76, R87, 06 R124, 07 R136, 08 R147, R162, 09 R168, R170). A core that neither runs nor is ready for its release takes
no tick: only the no-tick run ends. What is taken before the tick and in which order, that the rollover is a step of
its own, that a rollover taken early is not taken again, that a tick ends the no-tick run, and the codes of conversions
and samples so taken are the model's choices (log entries 2, 4, 5, 8 and 9). -/
def Obligations.CoreTickAddsTheIncrement : Prop :=
  ∀ (s u : State) (w : Nat), s.running = true → u = s.closeTick → w = u.time.within + u.time.inc →
    (w < Config.unitsPerSec →
      exec .coreTick s = .next { u.nextTick with
        time := { u.time with ns := w / 2 ^ 32, frac := w % 2 ^ 32, excess := 0 }, rolled := .none })
    ∧ (Config.unitsPerSec ≤ w → 2 ^ 40 - 1 ≤ u.time.sec →
      exec .coreTick s = .next { u.nextTick with
        time := { u.time with sec := 2 ^ 40 - 1, ns := 999999999, frac := 2 ^ 32 - 1
                              excess := w - (Config.unitsPerSec - 1) }
        rolled := .none })
    ∧ (Config.unitsPerSec ≤ w → u.time.sec < 2 ^ 40 - 1 →
      exec .coreTick s = .next { u.nextTick with
        time := { u.time with sec := u.time.sec + 1, ns := (w - Config.unitsPerSec) / 2 ^ 32
                              frac := (w - Config.unitsPerSec) % 2 ^ 32, excess := 0 }
        rolled := if u.rolled = .early then .taken else .waiting })
    ∧ u.tick = s.tick ∧ u.pending = s.pending ∧ u.mon.phase = .run ∧ u.mon.noTick = s.mon.noTick
    ∧ u.rolled ≠ .waiting ∧ (u.secp = true → u.secpRise < u.tick → u.time.ns < u.disc.settings.secpNs)
    ∧ (∀ i : Input, (∀ v ∈ (u.interp i).conv, s.tick < v.cap.tick + 7) ∧ (∀ n ∈ (u.interp i).sample, s.tick < n)
      ∧ (∀ c ∈ (u.interp i).coarse.head?, s.tick < c.tick + 7)
      ∧ (i ≠ .ref → (s.interp i).captured + (s.interp i).presented.length ≤ 2 →
        (s.interp i).coarse.length + (s.interp i).presented.length ≤ 14 → (u.interp i).presented = []))
    ∧ (∀ n ∈ u.calExpiry, s.tick < n) ∧ (∀ n ∈ u.rstnReleaseAt, s.tick < n)
    ∧ (∀ l : Fin 8, u.arrivals[l] = [] ∧ (u.lines[l].state = .live → ∀ n ∈ u.lines[l].quiet, s.tick < n))
    ∧ (∀ m : Fin 4, ∀ c ∈ u.markers[m].candidate, s.tick < c.qualTick ∨ c.selected = true ∧ c.stamp = none)
    ∧ u.pool.fromEngine = [] ∧ u.pool.fromMarkers = []
    ∧ (∀ p : Fin 3, (∀ n ∈ u.ports[p].hbTimer, s.tick < n)
      ∧ (u.ports[p].state = .held → ∀ n ∈ u.ports[p].holdTimer, s.tick < n)
      ∧ (u.ports[p].state = .streaming → ∀ n ∈ u.ports[p].silenceTimer, s.tick < n))
    ∧ ((s.channels.map Prod.fst).Pairwise (· < ·) →
      ∀ q ∈ u.channels, ∀ d ∈ q.2.win.deadline, d.reached u.reading = false)
    ∧ (s.rolled ≠ .waiting → (s.interp .ref).conv = none → (s.interp .ref).coarse = [] →
      (∀ d, s.disc.state = .settling → s.disc.silence = some d → d.reached s.reading = true → u.disc.silence ≠ some d)
      ∧ (∀ w x, s.disc.state = .locked ∨ s.disc.state = .holdover → s.disc.window = some w →
        s.disc.expected = some x → w.closeAt.reached s.reading = true → u.disc.expected ≠ some x))
    ∧ (∀ r : State, r.running = false → r.releaseReady = false →
      exec .coreTick r = .next (r.updMon fun m => { m with noTick := 0 }))

/-- A rollover that waits is taken at its tick: SECP rises; in HOLDOVER the age advances and FREERUN is entered at the
limit; a label pending counts the rollover, and at the second is applied, with the seconds replaced, a new epoch,
FREERUN and TIMESCALE raised before QUALITY. SECP falls once a later tick has reached the width; where a correction of
that tick then takes the value back below it, SECP is still high (01 R5, R13, R19; 02 R43, R46, R54). The model's
choices: ROLLOVER where none waits is the next core tick where that one rolls over, with its effects, and nothing
elsewhere (log entries 3 and 4); what is taken at the tick before (log entry 2); the value where the cleared slew would
not have reached the second (log entry 5); the readings of the tick (log entry 6); that a fall of the tick is judged
again by the width it fell by, or a narrower one written since (log entry 18). -/
def Obligations.RolloverEffectsAndSecp : Prop :=
  (∀ s : State, s.running = true → s.rolled ≠ .waiting →
    (s.rollsNext = true → exec .rollover s = .next s.closeTick.advanceTick.takeRollover)
    ∧ (s.rollsNext = false → exec .rollover s = .next s))
  ∧ (∀ (s t : State) (inc : Nat) (v : Timescale), s.running = true → s.rolled = .waiting → t = s.takeRollover →
    inc = increment s.disc.rate 0 →
    v = (if s.time.borrows inc then ({ s.time with inc := inc } : Timescale).put s.time.sec 0
      else s.time.reincrement inc) →
    exec .rollover s = .next t
    ∧ t = { s.rereadAs t.reading with
            time := t.time, secp := true, secpRise := s.tick, secpFell := none, rolled := .taken, disc := t.disc
            ports := t.ports }
    ∧ (∀ d, d = (if s.disc.state = .holdover then
          if s.disc.settings.holdoverSeconds ≤ s.disc.age + 1 then
            { s.disc with state := .freerun, age := 0, reacquired := 0, expected := none, window := none }
          else { s.disc with age := s.disc.age + 1 }
        else s.disc) →
      (s.disc.label = none →
        t.disc = { d with qualityAt := t.disc.qualityAt } ∧ t.time = s.time
          ∧ t.ports = ((s.raised t []).rereadAs t.reading).ports)
      ∧ (∀ l, s.disc.label = some l → l.rollovers = 0 →
        t.disc = { d with label := some { value := l.value, rollovers := 1 }, qualityAt := t.disc.qualityAt }
          ∧ t.time = s.time ∧ t.ports = ((s.raised t []).rereadAs t.reading).ports))
    ∧ (∀ l, s.disc.label = some l → 1 ≤ l.rollovers →
      t.disc = { s.disc with
          state := .freerun, slew := 0, suspect := false, good := 0, faults := 0, reacquired := 0, age := 0
          expected := none, window := none, silence := none, label := none, qualityAt := t.disc.qualityAt }
        ∧ t.time = { v with sec := min l.value (2 ^ 40 - 1), epoch := s.time.epoch + 1, excess := 0 }
        ∧ t.ports = ((s.raised t [.timescale .labelAtFallback s.time.epoch (s.time.epoch + 1)
            (max (-(2 ^ 63 - 1)) (min (2 ^ 63 - 1) (((l.value : Int) - v.sec) * 256000000000))) (some l.value)
            .freerun]).rereadAs t.reading).ports))
  ∧ (∀ s : State, s.running = true →
    (s.secp = true → s.secpRise < s.tick → s.disc.settings.secpNs ≤ s.time.ns →
      exec .secpFall s =
        .next { s with secp := false, secpFell := some { tick := s.tick, width := s.disc.settings.secpNs } })
    ∧ (s.secp = false ∨ s.tick ≤ s.secpRise ∨ s.time.ns < s.disc.settings.secpNs → exec .secpFall s = .next s))
  ∧ (∀ s : State,
    (s.secpBack s → s.reread = { s.rereadAs s.reading with secp := true, secpFell := none })
    ∧ (¬ s.secpBack s → s.reread = s.rereadAs s.reading))

/-- The tick of a change of the rate or the slew adds the new increment in place of the old: its value and its rollover
are those that the new increment gives; an increment that does not change leaves all as it is. The increment is the
nominal one and its part by the total correction, rounded half away from zero, within its bounds (01 R2, R3). How the
model keeps to this where a rollover has been taken early, and after a correction of the tick, is its choice (log entry
5). -/
def Obligations.ATickAddsTheNewIncrement : Prop :=
  (∀ (s : State) (b : Nat), s.time.within < Config.unitsPerSec → s.time.sec ≤ 2 ^ 40 - 1 →
    s.time.inc ≤ Config.unitsPerSec → b ≤ Config.unitsPerSec → s.rolled ≠ .early →
    s.count.setIncrement b = State.count { s with time := { s.time with inc := b } })
  ∧ (∀ s : State, s.setIncrement s.time.inc = s)
  ∧ (∀ (r l corr : Int), corr = max (-250000) (min 250000 (r + l)) →
    2 * (((increment r l : Int) - 10737418240) * 1000000000 - 10737418240 * corr).natAbs ≤ 1000000000
      ∧ 10734733885 ≤ increment r l ∧ increment r l ≤ 10740102595)

/-- A step removes the exact error, of at most half a second, from the value that the new increment gives the tick, in
units of 2^-32 ns with borrow and carry; below zero the value is zero, and above the last second the seconds stay. It
starts a new epoch and clears the slew, and a carry into the next second is a rollover of the tick. A label then
replaces the seconds by seconds less Q plus the label (01 R1, R9, R11, R12, R14). That a carry at the last second is a
rollover too is the model's choice (log entry 13). -/
def Obligations.CorrectionsMoveTheValue : Prop :=
  (∀ (ex : Int) (s t : State) (v : Timescale) (w : Int), ex.natAbs ≤ 128000000000 →
    v = s.time.reincrement (increment s.disc.rate 0) → v.within < Config.unitsPerSec → v.sec ≤ 2 ^ 40 - 1 →
    w = (v.sec * Config.unitsPerSec + v.within : Nat) - ex * 2 ^ 24 → t = s.correct ex →
    t = { s with disc := { s.disc with slew := 0 }, time := t.time, rolled := t.rolled }
    ∧ t.time.inc = increment s.disc.rate 0 ∧ t.time.epoch = s.time.epoch + 1 ∧ t.time.excess = 0
    ∧ (w < 0 → t.time.sec = 0 ∧ t.time.within = 0)
    ∧ (0 ≤ w → w < 2 ^ 40 * Config.unitsPerSec →
      ((t.time.sec * Config.unitsPerSec + t.time.within : Nat) : Int) = w ∧ t.time.within < Config.unitsPerSec)
    ∧ (2 ^ 40 * Config.unitsPerSec ≤ w →
      t.time.sec = 2 ^ 40 - 1 ∧ (t.time.within : Int) = w - 2 ^ 40 * Config.unitsPerSec)
    ∧ t.rolled = (if (Config.unitsPerSec : Int) ≤ v.within - ex * 2 ^ 24
        then (s.setIncrement (increment s.disc.rate 0)).rolled.forward
        else (s.setIncrement (increment s.disc.rate 0)).rolled))
  ∧ (∀ (q l : Nat) (v : Timescale),
    (v.sec + l < q → v.relabel q l = { v with sec := 0, ns := 0, frac := 0, excess := 0 })
    ∧ (q ≤ v.sec + l → v.relabel q l = { v with sec := min (v.sec + l - q) (2 ^ 40 - 1), excess := 0 }))
  ∧ Rollover.forward .none = .waiting ∧ Rollover.forward .waiting = .waiting ∧ Rollover.forward .taken = .taken

/-- A reading is the value of the tick with its fraction divided by 2^24 and rounded half up, carried into the
nanoseconds and the seconds, and held below the last second's end; readings never fall as the value rises (01 R6). It
carries the epoch, the class and the flags in force (01 R7). -/
def Obligations.ReadingsAreRounded : Prop :=
  (∀ (s : State) (n : Nat), s.time.ns < 1000000000 → s.time.frac < 2 ^ 32 → s.time.sec ≤ 2 ^ 40 - 1 →
    n = (2 * s.time.frac + 2 ^ 24) / 2 ^ 25 →
    n ≤ 256
    ∧ (∀ sec ns sub, s.reading = { sec := sec, ns := ns, sub := sub, epoch := s.time.epoch, quality := s.disc.state
                                   invalid := s.mon.invalid, suspect := s.disc.suspect } ↔
      (sec, ns, sub) =
        if n < 256 then (s.time.sec, s.time.ns, n)
        else if s.time.ns < 999999999 then (s.time.sec, s.time.ns + 1, 0)
        else if s.time.sec < 2 ^ 40 - 1 then (s.time.sec + 1, 0, 0)
        else (2 ^ 40 - 1, 999999999, 255)))
  ∧ (∀ s t : State, s.time.ns < 1000000000 → s.time.frac < 2 ^ 32 → s.time.sec ≤ 2 ^ 40 - 1 →
    t.time.ns < 1000000000 → t.time.frac < 2 ^ 32 → t.time.sec ≤ 2 ^ 40 - 1 →
    s.time.sec * Config.unitsPerSec + s.time.within ≤ t.time.sec * Config.unitsPerSec + t.time.within →
    unitsOf s.reading.sec s.reading.ns s.reading.sub ≤ unitsOf t.reading.sec t.reading.ns t.reading.sub)

/-- What a change of the value, the epoch, the class or a flag does to the readings of its tick: the captures of the
tick, and the stamps taken as a reading of it, in heartbeats, replies to Query Time and TIMEOUT records, become the
reading after the change. Captures of other ticks, and stamps formed from edges, in records, notices and items, stay as
they are, and so does everything else (01 R7, R8, R9, R15). That it reaches the records, replies and link frames taken
before the change at the same tick is the model's reading (log entry 6). -/
def Obligations.ReadingsFollowTheTick : Prop :=
  (∀ (r : Reading) (s t : State) (f : Stamp → Stamp) (rec : Record → Record) (note : Notice → Notice)
      (item : Item → Item) (cap : Capture → Capture), t = s.rereadAs r →
    f = (fun st => if st.readAt = some s.tick then
      { sec := r.sec, ns := r.ns, sub := r.sub, epoch := r.epoch, quality := r.quality, invalid := r.invalid
        suspect := r.suspect, coarse := false, clamped := false, readAt := some s.tick } else st) →
    rec = (fun x => match x with
      | .gap g => .gap { g with stamp := f g.stamp }
      | .arrival a => .arrival a
      | .unmapped a => .unmapped a
      | .marker a => .marker a) →
    note = (fun n => match n.body with
      | .loss k a b total => { n with body := .loss k (f a) (f b) total }
      | _ => n) →
    item = (fun x => match x with
      | .reply bs => .reply bs
      | .timeReply a st b => .timeReply a (f st) b
      | .replyMore bs => .replyMore bs
      | .record x => .record (rec x)
      | .heartbeat h => .heartbeat { h with time := f h.time }
      | .notice n => .notice (note n)) →
    cap = (fun c => if c.tick = s.tick then { c with reading := r } else c) →
    t = { s with
      interps := t.interps, ports := t.ports
      pool := { s.pool with
        entries := s.pool.entries.map fun e => { e with record := rec e.record }
        fromEngine := s.pool.fromEngine.map fun o => { o with record := rec o.record } } }
    ∧ (∀ i : Fin 13, t.interps[i] = { s.interps[i] with
        conv := s.interps[i].conv.map fun v => { v with cap := cap v.cap }, coarse := s.interps[i].coarse.map cap })
    ∧ (∀ p : Fin 3, t.ports[p] = { s.ports[p] with
        notices := s.ports[p].notices.map note
        cmds := s.ports[p].cmds.map fun c => { c with reply := c.reply.map item }
        tx := s.ports[p].tx.map fun x => if x.items.map item = x.items then x
          else { items := x.items.map item, frame := linkFrame p (x.items.map item) } }))
  ∧ (∀ (r : Reading) (off comp : Nat) (coarse : Bool), (assembleStamp r off comp coarse).readAt = none)
  ∧ (∀ s : State, s.now.readAt = some s.tick)

/-- LOCKO drives its active level, which the polarity names, while the condition of its source holds, and its inactive
level otherwise; while the core is held or frozen it drives its inactive level whatever its source. Source and polarity
are those of the settings in force (01 R21, R22). -/
def Obligations.LockoReportsItsCondition : Prop :=
  ∀ s : State,
    (s.running = false → (s.locko = true ↔ s.disc.settings.polarity = .activeLow))
    ∧ (∀ active : Prop, s.running = true →
      (s.disc.settings.lockoSource = .locked → (active ↔ s.disc.state = .locked)) →
      (s.disc.settings.lockoSource = .lockedOrHoldover →
        (active ↔ s.disc.state = .locked ∨ s.disc.state = .holdover)) →
      (s.disc.settings.lockoSource = .invalid → (active ↔ s.mon.invalid = true)) →
      (s.disc.settings.lockoSource = .lineNotLive →
        (active ↔ ∃ l : Fin 8, s.lines[l].settings.enable = true
          ∧ (s.lines[l].state = .dark ∨ s.lines[l].state = .quiet))) →
      (s.disc.settings.polarity = .activeHigh → (s.locko = true ↔ active))
      ∧ (s.disc.settings.polarity = .activeLow → (s.locko = true ↔ ¬ active)))

/-! ## The interpolators and stamps (03, 04.4) -/

/-- An external edge captured now takes the reading and starts a conversion with the active table, abandoning a sample,
unless the converter is CONVERTING or its end tick is this one: then it waits as a coarse edge and is counted (03 R58,
R60, R64). The reference input presents its own edges, the others those their consumer has presented. Where 14 coarse
edges wait, those due are handed over first. At its end tick a conversion is handed over with the fine offset of its
code in the table it latched, or with 320 and COARSE where it latched none; the oldest coarse edge is handed over 7
ticks after its capture with 320 and COARSE, after a conversion captured no later (03 R57, R59, R60, R63). The model's
choices: the hand-over before a capture into a full list (log entry 2), and a capture at the end tick of a conversion
that has been taken (log entry 16). -/
def Obligations.EdgesAreCapturedAndHandedOver : Prop :=
  ∀ (i : Input) (s : State), s.running = true →
    (∀ (e : Nat) (rest : List Nat), (s.interp i).captured < 2 →
      (i = .ref ∧ e = 0 ∧ rest = (s.interp i).presented) ∨ (i ≠ .ref ∧ (s.interp i).presented = e :: rest) →
      ((s.interp i).coarse.length < 14 → ∀ c : Capture, c = { edge := e, tick := s.tick, reading := s.reading } →
        ((s.interp i).conv = none → (s.interp i).lastEnd ≠ some s.tick →
          exec (.edgeCapture i) s = .next (s.updInterp i fun x =>
            { x with presented := rest, captured := x.captured + 1, sample := none
                     conv := some { cap := c, table := x.table } }))
        ∧ ((s.interp i).conv ≠ none ∨ (s.interp i).lastEnd = some s.tick →
          exec (.edgeCapture i) s = .next (s.updInterp i fun x =>
            { x with presented := rest, captured := x.captured + 1, sample := none
                     coarse := x.coarse ++ [c], busy := satInc x.busy })))
      ∧ (14 ≤ (s.interp i).coarse.length →
        (((s.dueEdges i).interp i).coarse.length < 14 → exec (.edgeCapture i) s = exec (.edgeCapture i) (s.dueEdges i))
        ∧ (14 ≤ ((s.dueEdges i).interp i).coarse.length → exec (.edgeCapture i) s = .next s)))
    ∧ (∀ (v : Conversion) (k : Fin 32), (s.interp i).conv = some v → v.cap.tick + 7 ≤ s.tick →
      exec (.conversionEnd i k) s = .next (State.handEdge i v.cap
        (match v.table with | some w => fineOffset w k | none => 320) v.table.isNone
        (s.updInterp i fun x => { x with conv := none, lastEnd := some s.tick })))
    ∧ (∀ (c : Capture) (cs : List Capture), (s.interp i).coarse = c :: cs → c.tick + 7 ≤ s.tick →
      (∀ v ∈ (s.interp i).conv, c.tick < v.cap.tick) →
      exec (.coarseEdgeHandover i) s = .next (State.handEdge i c 320 true
        (s.updInterp i fun x => { x with coarse := cs })))

/-- The stamp is the capture reading less fine offset and compensation, with a borrow from the seconds, or zero
with CLAMPED where it would be below zero; its class and flags are those of the reading (04 R81, R82). -/
def Obligations.StampsSubtractTheDelay : Prop :=
  ∀ (r : Reading) (f l : Nat) (coarse : Bool), r.Ok → f ≤ 639 → l ≤ 65535 →
    ∀ st : Stamp, st = assembleStamp r f l coarse →
      st.ns < 1000000000 ∧ st.sub < 256 ∧ st.epoch = r.epoch ∧ st.quality = r.quality ∧ st.invalid = r.invalid
      ∧ st.suspect = r.suspect ∧ st.coarse = coarse
      ∧ (f + l ≤ r.ns * 256 + r.sub →
        st.sec = r.sec ∧ st.ns * 256 + st.sub = r.ns * 256 + r.sub - (f + l) ∧ st.clamped = false)
      ∧ (r.ns * 256 + r.sub < f + l → 1 ≤ r.sec →
        st.sec = r.sec - 1 ∧ st.ns * 256 + st.sub + (f + l) = r.ns * 256 + r.sub + 256 * 1000000000
          ∧ st.clamped = false)
      ∧ (r.ns * 256 + r.sub < f + l → r.sec = 0 →
        st.sec = 0 ∧ st.ns = 0 ∧ st.sub = 0 ∧ st.clamped = true)

/-- The fine offset of a code is the middle of its bin in the table, rounded half up and clamped to 639; in a table
of 65,536 samples the offsets never fall with rising code (03 R61, R62). -/
def Obligations.FineOffsetsNeverFall : Prop :=
  ∀ t : CalTable, t.toList.sum = 65536 →
    (∀ k : Fin 32, fineOffset t k =
      min 639 ((2 * (640 * (2 * (t.toList.take k.val).sum + t[k])) + 131072) / (2 * 131072)))
    ∧ ∀ j k : Fin 32, j ≤ k → fineOffset t j ≤ fineOffset t k ∧ fineOffset t k ≤ 639

/-- An internal edge starts a sample on an IDLE interpolator with a collection and is ignored elsewhere; the end of
a sample counts its code, and the 65,536th makes the collection the active table; the calibration timer starts
collections where there are none and starts again (03 R64 to R67). -/
def Obligations.CalibrationCollectsSamples : Prop :=
  ∀ (i : Input) (k : Fin 32) (s : State), s.running = true →
    ((s.interp i).conv = none → (s.interp i).sample = none → (s.interp i).collection ≠ none →
      exec (.internalEdge i) s = .next (s.updInterp i fun x => { x with sample := some (s.tick + 7) }))
    ∧ ((s.interp i).conv ≠ none ∨ (s.interp i).sample ≠ none ∨ (s.interp i).collection = none →
      exec (.internalEdge i) s = .next s)
    ∧ (∀ (n : Nat) (c : Collection), (s.interp i).sample = some n → n ≤ s.tick →
      (s.interp i).collection = some c → ∀ d : Collection,
      d = { bins := c.bins.set k (c.bins[k] + 1), samples := c.samples + 1 } →
      (c.samples + 1 < 65536 → exec (.sampleEnd i k) s =
        .next (s.updInterp i fun x => { x with sample := none, collection := some d }))
      ∧ (65536 ≤ c.samples + 1 → exec (.sampleEnd i k) s =
        .next (s.updInterp i fun x => { x with sample := none, table := some d.bins, collection := none
                                               calibrations := satInc x.calibrations })))
    ∧ (∀ n, s.calExpiry = some n → n ≤ s.tick →
      exec .calibrationTimerExpiry s = .next
        { s.mapInterps fun x =>
            if x.collection = none then
              { x with collection := some { bins := Vector.replicate 32 0, samples := 0 } } else x with
          calExpiry := s.disc.settings.calTicks.map fun m => s.tick + m })

/-! ## The discipline controller (02) -/

/-- The pulse error and the nominal second of a stamp, and the terms after an update: the quotients are exact and
rounded half away from zero, and the increment is that of the new terms (02 R27, R29). -/
def Obligations.PulseErrorsAndUpdates : Prop :=
  (∀ st : Stamp,
    (st.ns < 500000000 → ∀ q, q = judgePulse st →
      q.e = (st.ns : Int) + (if 128 ≤ st.sub then 1 else 0) ∧ q.ex = (st.ns : Int) * 256 + st.sub
        ∧ q.nominal = st.sec)
    ∧ (500000000 ≤ st.ns → ∀ q, q = judgePulse st →
      q.e = (st.ns : Int) - 1000000000 + (if 128 ≤ st.sub then 1 else 0)
        ∧ q.ex = ((st.ns : Int) - 1000000000) * 256 + st.sub ∧ q.nominal = st.sec + 1))
  ∧ (∀ (n : Int) (d : Nat), 0 < d →
    2 * (roundHalfAway n d * d - n).natAbs ≤ d
      ∧ (2 * (roundHalfAway n d * d - n).natAbs = d → n.natAbs ≤ (roundHalfAway n d * d).natAbs))
  ∧ (∀ (e : Int) (s t : State), t = s.update e →
    t.disc.rate = max (-200000) (min 200000 (s.disc.rate - roundHalfAway e (2 ^ s.disc.settings.a)))
      ∧ t.disc.slew = max (-(s.disc.settings.slewLimit : Int))
          (min s.disc.settings.slewLimit (-(roundHalfAway e (2 ^ s.disc.settings.b))))
      ∧ t.time.inc = increment t.disc.rate t.disc.slew ∧ t.time.epoch = s.time.epoch)


/-- A pulse without lock: one of another epoch is set aside; in UNSET with no label pending it is ignored; in FREERUN a
double pulse is ignored, and any other, with no label pending, steps or updates into SETTLING, with a good-pulse
count of 1 where an update was within the lock threshold (02 R26, R28, R31, R33, R34). That a double pulse lies at or
after the reference instant is the model's choice (log entry 32). -/
def Obligations.PulsesWithoutLock : Prop :=
  ∀ (k : Fin 32) (q : Pulse) (s u : State), s.PulseEnds k q u →
    (q.stamp.epoch ≠ u.time.epoch → exec (.conversionEnd .ref k) s = .next u)
    ∧ (q.stamp.epoch = u.time.epoch → u.disc.state = .unset → u.disc.label = none →
      exec (.conversionEnd .ref k) s = .next u.reread)
    ∧ (q.stamp.epoch = u.time.epoch → u.disc.state = .freerun →
      (u.isDoublePulse q.stamp = true → exec (.conversionEnd .ref k) s = .next u.reread)
      ∧ (u.isDoublePulse q.stamp = false → u.disc.label = none →
        ∃ t, exec (.conversionEnd .ref k) s = .next t
          ∧ (q.e.natAbs ≤ u.disc.settings.stepNs →
            u.UpdatesInto t q (if q.e.natAbs ≤ u.disc.settings.lockNs then 1 else 0) [])
          ∧ (u.disc.settings.stepNs < q.e.natAbs → u.StepsInto t q [])))
    ∧ (∀ (st : Stamp) (i : Deadline), u.disc.instant = some i →
      (u.isDoublePulse st = true ↔ i.epoch = u.time.epoch ∧ unitsOf i.sec i.ns i.sub ≤ unitsOf st.sec st.ns st.sub
        ∧ unitsOf st.sec st.ns st.sub < unitsOf i.sec i.ns i.sub + 128000000000))

/-- A pulse in SETTLING. A double pulse is a fault, whether or not a label is pending: the first leaves SETTLING, a
second in a row enters FREERUN. Any other, with no label pending, is taken: a good one counts, and the one that brings
the count to the lock count enters LOCKED with the window of width W around the next second; one beyond the lock
threshold updates and ends the count; one beyond the step threshold steps. Each of them clears the fault memory
(02 R35, R36, R37). What a double pulse is, is the model's choice (log entry 32). -/
def Obligations.PulsesInSettling : Prop :=
  ∀ (k : Fin 32) (q : Pulse) (s u : State), s.PulseEnds k q u → q.stamp.epoch = u.time.epoch →
    u.disc.state = .settling →
    ∃ t, exec (.conversionEnd .ref k) s = .next t
      ∧ (u.isDoublePulse q.stamp = true →
        u.Faults t u.disc.settlingFaulted .doublePulse (some (q.e, q.stamp)))
      ∧ (u.isDoublePulse q.stamp = false → u.disc.label = none →
        (q.e.natAbs ≤ u.disc.settings.stepNs → q.e.natAbs ≤ u.disc.settings.lockNs →
          u.disc.settings.lockCount ≤ u.disc.good + 1 →
          t.disc = { Discipline.expecting { u.disc.updated q.e with
              state := .locked, suspect := false, good := min (u.disc.good + 1) 16, faults := 0
              instant := some q.stamp.time, silence := none } (q.nominal + 1) 1 u.time.epoch with
            qualityAt := t.disc.qualityAt }
          ∧ u.CountsWith t (increment t.disc.rate t.disc.slew) ∧ u.IsEvent t [])
        ∧ (q.e.natAbs ≤ u.disc.settings.stepNs → q.e.natAbs ≤ u.disc.settings.lockNs →
          u.disc.good + 1 < u.disc.settings.lockCount → u.UpdatesInto t q (min (u.disc.good + 1) 16) [])
        ∧ (q.e.natAbs ≤ u.disc.settings.stepNs → u.disc.settings.lockNs < q.e.natAbs → u.UpdatesInto t q 0 [])
        ∧ (u.disc.settings.stepNs < q.e.natAbs → u.StepsInto t q []))

/-- A label pending is carried out by the first pulse that is taken: in UNSET, in FREERUN and SETTLING unless it is a
double pulse, in LOCKED and HOLDOVER inside the window. The exact error is removed, the seconds become seconds less Q
plus the label, a new epoch starts, and SETTLING is entered with a good-pulse count of 1 and the label's second as the
reference instant; TIMESCALE carries the amount, clamped, and QUALITY follows it (01 R11, R12; 02 R32, R33, R45, R54).
What a double pulse is, that the amount is the same where the value was held at zero or at its maximum, and that Q is
2^40 where the removal is held at the last second, are the model's choices (log entries 32, 13 and 41). -/
def Obligations.LabelsAtPulses : Prop :=
  ∀ (k : Fin 32) (q : Pulse) (l : PendingLabel) (s u v : State), s.PulseEnds k q u →
    q.stamp.epoch = u.time.epoch → u.disc.label = some l →
    u.disc.state = .unset
      ∨ (u.disc.state = .freerun ∨ u.disc.state = .settling) ∧ u.isDoublePulse q.stamp = false
      ∨ (u.disc.state = .locked ∨ u.disc.state = .holdover) ∧ u.insideWindow q.stamp = true →
    v = u.correct q.ex →
    ∃ t, exec (.conversionEnd .ref k) s = .next t
      ∧ t.disc = { ({ u.disc with slew := 0, label := none } : Discipline).settling 1
          { sec := l.value, ns := 0, sub := 0, epoch := u.time.epoch + 1 } with qualityAt := t.disc.qualityAt }
      ∧ t.time = v.time.relabel q.nominal l.value ∧ t.rolled = v.rolled
      ∧ u.IsEvent t [.timescale .labelAtPulse u.time.epoch (u.time.epoch + 1)
          (max (-(2 ^ 63 - 1)) (min (2 ^ 63 - 1) (((l.value : Int) - q.nominal) * 256000000000 - q.ex)))
          (some l.value) .settling]

/-- A pulse in LOCKED and HOLDOVER with no label pending, or outside the window. Inside the window, in LOCKED: a good
one updates, clears the suspect flag and expects the next second; one beyond the lock threshold updates and leads to
SETTLING; one beyond the step threshold is an OUTLIER, a fault. In HOLDOVER it counts towards reacquisition, and the
last one raises REACQUIRED and leads to SETTLING by an update or by a step. Outside the window it is an OUT_OF_WINDOW
fault: in LOCKED the first sets the suspect flag and a second enters HOLDOVER with the window widened; in HOLDOVER it
ends the count (02 R37, R38, R40 to R42, R53, R54). -/
def Obligations.PulsesAreJudgedByTheWindow : Prop :=
  ∀ (k : Fin 32) (q : Pulse) (s u : State) (next : ExpectedSecond), s.PulseEnds k q u →
    q.stamp.epoch = u.time.epoch → next = { sec := q.nominal + 1, epoch := u.time.epoch } →
    ∃ t, exec (.conversionEnd .ref k) s = .next t
      ∧ (u.disc.state = .locked → u.insideWindow q.stamp = true → u.disc.label = none →
        (q.e.natAbs ≤ u.disc.settings.stepNs → q.e.natAbs ≤ u.disc.settings.lockNs →
          t.disc = { Discipline.expecting { u.disc.updated q.e with
              suspect := false, instant := some q.stamp.time } (q.nominal + 1) 1 u.time.epoch with
            qualityAt := t.disc.qualityAt }
          ∧ u.CountsWith t (increment t.disc.rate t.disc.slew) ∧ u.IsEvent t [])
        ∧ (q.e.natAbs ≤ u.disc.settings.stepNs → u.disc.settings.lockNs < q.e.natAbs → u.UpdatesInto t q 0 [])
        ∧ (u.disc.settings.stepNs < q.e.natAbs →
          u.Faults t (Discipline.lockedFaulted (Discipline.expecting { u.disc with instant := some q.stamp.time }
              (q.nominal + 1) 1 u.time.epoch) u.time.epoch) .outlier (some (q.e, q.stamp))))
      ∧ (u.disc.state = .locked → u.insideWindow q.stamp = false →
        u.Faults t (u.disc.lockedFaulted u.time.epoch) .outOfWindow (some (q.e, q.stamp)))
      ∧ (u.disc.state = .holdover → u.insideWindow q.stamp = true → u.disc.label = none →
        (u.disc.reacquired + 1 < u.disc.settings.reacquireCount →
          t = State.reread { u with disc := Discipline.expecting { u.disc with
                reacquired := u.disc.reacquired + 1, instant := some q.stamp.time } (q.nominal + 1) 4 u.time.epoch })
        ∧ (u.disc.settings.reacquireCount ≤ u.disc.reacquired + 1 →
          (q.e.natAbs ≤ u.disc.settings.stepNs →
            u.UpdatesInto t q (if q.e.natAbs ≤ u.disc.settings.lockNs then 1 else 0)
              [.reference .reacquired .settling (some (q.e, q.stamp))])
          ∧ (u.disc.settings.stepNs < q.e.natAbs →
            u.StepsInto t q [.reference .reacquired .settling (some (q.e, q.stamp))])))
      ∧ (u.disc.state = .holdover → u.insideWindow q.stamp = false →
        t = State.reread (State.notifyAll (.reference .outOfWindow .holdover (some (q.e, q.stamp)))
          { u with disc := { u.disc with reacquired := 0 } }))
      ∧ (∀ w, u.disc.window = some w → w.openAt.ns < 1000000000 → w.openAt.sub < 256 → w.closeAt.ns < 1000000000 →
        w.closeAt.sub < 256 → q.stamp.ns < 1000000000 → q.stamp.sub < 256 →
        (u.insideWindow q.stamp = true ↔ q.stamp.epoch = w.openAt.epoch
        ∧ unitsOf w.openAt.sec w.openAt.ns w.openAt.sub ≤ unitsOf q.stamp.sec q.stamp.ns q.stamp.sub
        ∧ unitsOf q.stamp.sec q.stamp.ns q.stamp.sub ≤ unitsOf w.closeAt.sec w.closeAt.ns w.closeAt.sub))

/-- The silence deadline reached in SETTLING is a NO_PULSE fault, with the deadline armed again 2.0 s later. The close
of a window with no pulse taken forms the next around the second after: in LOCKED with a half-width of W, or of four
times W where the fault enters HOLDOVER, and in HOLDOVER with four times W, where the fault ends the reacquire count. A
deadline that the reading of the tick has not reached does nothing. A deadline is reached where the epoch of the
reading is another, or the reading is at or after it (01 R10; 02 R36, R39 to R42, R53). -/
def Obligations.MissingPulsesAreFaults : Prop :=
  (∀ s : State, s.running = true →
    (∀ d : Deadline, s.disc.silence = some d →
      (s.disc.state = .settling → d.reached s.reading = true →
        ∃ t, exec .noPulse s = .next t
          ∧ s.Faults t (Discipline.settlingFaulted { s.disc with silence := some { d with sec := d.sec + 2 } })
              .noPulse none)
      ∧ (d.reached s.reading = false → exec .noPulse s = .next s))
    ∧ (∀ (w : RefWindow) (x : ExpectedSecond), s.disc.window = some w → s.disc.expected = some x →
      (w.closeAt.reached s.reading = true →
        (s.disc.state = .locked →
          ∃ t, exec .missedWindow s = .next t
            ∧ s.Faults t ((s.disc.expecting (x.sec + 1) 1 s.time.epoch).lockedFaulted s.time.epoch)
                .missedWindow none)
        ∧ (s.disc.state = .holdover →
          exec .missedWindow s = .next (State.reread (State.notifyAll (.reference .missedWindow .holdover none)
            { s with disc := { s.disc.expecting (x.sec + 1) 4 s.time.epoch with reacquired := 0 } }))))
      ∧ (w.closeAt.reached s.reading = false → exec .missedWindow s = .next s)))
  ∧ (∀ (d : Deadline) (r : Reading), d.reached r = true ↔ r.epoch ≠ d.epoch ∨ d.sec < r.sec
    ∨ d.sec = r.sec ∧ (d.ns < r.ns ∨ d.ns = r.ns ∧ d.sub ≤ r.sub))

/-! ## The lines (04.2, 04.3, 04.6) -/

/-- Block lock gained takes a DARK line to QUIET, except while RSTN is asserted, and does nothing elsewhere. Block lock
lost takes a QUIET or LIVE line to DARK; an open frame first ends TRUNCATED, which makes the line LIVE, and is handed
off where its stamp is present; a line without block lock stays as it is. The quiet timer takes a LIVE line to QUIET
once it has run out. Each change raises LINE with the states of all lines, and nothing else changes (04 R75, R76, R77,
R78, R87; 10 R189). That the bytes of the open frame come with the command is the model's choice (log entry 11). -/
def Obligations.LineStatesFollowTheLink : Prop :=
  ∀ (l : Fin 8) (bytes : List Byte) (s : State), s.running = true →
    (s.rstnAsserted = false → s.lines[l].state = .dark → ∀ t,
      t = s.updLine l (fun x => { x with lock := true, state := .quiet }) →
      exec (.blockLockGained l) s = .next (t.notifyAll (.line l .dark .quiet (s.lineStates.set l .quiet))))
    ∧ (s.rstnAsserted = true ∨ s.lines[l].state ≠ .dark → exec (.blockLockGained l) s = .next s)
    ∧ (s.lines[l].state = .quiet ∨ s.lines[l].state = .live → s.lines[l].frames.any Frame.isOpen = false → ∀ t,
      t = s.updLine l (fun x => { x with lock := false, quiet := none, state := .dark }) →
      exec (.blockLockLost l bytes) s = .next
        (t.notifyAll (.line l s.lines[l].state .dark (s.lineStates.set l .dark))))
    ∧ (∀ (before : List Frame) (f : Frame), s.OpenLast l before f → bytes.length < 65535 → ∀ t,
      t = State.updLine l (fun x => { x with lock := false, quiet := none, state := .dark })
        (s.frameEnded l before f bytes .truncated) →
      exec (.blockLockLost l bytes) s = .next (t.notifyAll (.line l .live .dark (s.lineStates.set l .dark))))
    ∧ (s.lines[l].state = .disabled ∨ s.lines[l].state = .dark → exec (.blockLockLost l bytes) s = .next s)
    ∧ (∀ n, s.lines[l].state = .live → s.lines[l].quiet = some n → n ≤ s.tick → ∀ t,
      t = s.updLine l (fun x => { x with quiet := none, state := .quiet }) →
      exec (.quietTimerExpiry l) s = .next (t.notifyAll (.line l .live .quiet (s.lineStates.set l .quiet))))
    ∧ (s.lines[l].state ≠ .live ∨ (∀ n ∈ s.lines[l].quiet, s.tick < n) →
      exec (.quietTimerExpiry l) s = .next s)
    ∧ (∀ (f : Frame), f.isOpen = true ↔ f.ended = none)
    ∧ ∀ k : Fin 8, s.lineStates[k] = s.lines[k].state

/-- A start code on a line that receives opens a frame, latches the compensation and presents its edge; a frame that is
still open ends TRUNCATED before it, with LINE where the line was QUIET, and is handed off where its stamp is present;
frames that have ended and wait for their stamps stay. On a line without block lock nothing happens (04 R73, R75, R77,
R78, R87). The model's choices: the bytes of the frame that ends come with the command, and those of the new one with
the command that ends it (log entry 11); a second start code at one tick does nothing (log entry 3); of a write of the
compensation at that tick, what is taken after the start code comes too late (log entry 42). -/
def Obligations.FrameStartOpensAFrame : Prop :=
  ∀ (l : Fin 8) (bytes : List Byte) (s : State), s.running = true →
    (s.lines[l].state = .quiet ∨ s.lines[l].state = .live → s.lines[l].frames.any Frame.isOpen = false →
      (∀ f ∈ s.lines[l].frames, f.captureTick ≠ s.tick) →
      exec (.frameStart l bytes) s = .next (s.frameOpened l))
    ∧ (∀ (before : List Frame) (f : Frame), s.OpenLast l before f → bytes.length < 65535 →
      (∀ b ∈ s.lines[l].frames, b.captureTick ≠ s.tick) →
      exec (.frameStart l bytes) s = .next (State.frameOpened l (s.frameEnded l before f bytes .truncated)))
    ∧ (∀ f ∈ s.lines[l].frames, f.captureTick = s.tick → exec (.frameStart l bytes) s = .next s)
    ∧ (s.lines[l].state = .disabled ∨ s.lines[l].state = .dark → exec (.frameStart l bytes) s = .next s)

/-- The end of a frame fixes its length, its verdict (TRUNCATED for an early end, then OVERSIZE, RUNT, FCS, NONE) and
its parse, makes the line LIVE with a new quiet timer, LINE raised where it was QUIET, and, the stamp being present,
hands the frame off: the arrival joins those of the line and the counters increase. A frame whose stamp comes after its
end waits with its length, parse and verdict, and is handed off with the stamp, whichever frames stand before and after
it; an edge that belongs to no frame is discarded, and an end with no frame open does nothing. The parse reads the
type, a tag, the IPv4 header and the UDP port, names the first check that fails, or gives the key, the payload length
and the field bytes (04 R73, R75, R77 to R80, R83 to R87, R90, R91). That the bytes come with the command that ends the
frame is the model's choice (log entry 11). That each field is read whole, in the order of the rules, and that a frame
that ends inside a field is HEADER_CUT at that field, is the model's reading of the rules (log entry 21). -/
def Obligations.FrameEndsAreHandedOff : Prop :=
  (∀ (l : Fin 8) (bytes : List Byte) (before : List Frame) (f : Frame) (s : State), s.running = true →
    (∀ (how : FrameEnding) (v : Verdict), s.OpenLast l before f → bytes.length < 65535 →
      v = (if how = .otherControl then .truncated else if 9216 < bytes.length then .oversize
        else if bytes.length < 64 then .runt
        else if bytes.drop (bytes.length - 4) = crcBytes (bytes.take (bytes.length - 4)) then .none else .fcs) →
      exec (.frameEnd l bytes how) s = .next (s.frameEnded l before f bytes v))
    ∧ (s.OpenLast l before f → bytes.length = 65535 →
      exec (.byteCountLimit l bytes) s = .next (s.frameEnded l before f bytes .oversize))
    ∧ (∀ how : FrameEnding, s.lines[l].frames.any Frame.isOpen = false ∨ s.lines[l].state = .disabled
        ∨ s.lines[l].state = .dark →
      exec (.frameEnd l bytes how) s = .next s ∧ exec (.byteCountLimit l bytes) s = .next s)
    ∧ (∀ (after : List Frame) (c : Capture) (off : Nat) (coarse : Bool) (st : Stamp) (t : State),
      s.lines[l].frames = before ++ f :: after → f.edge = c.edge → f.stamp = none →
      (∀ b, b ∈ before ∨ b ∈ after → b.edge ≠ c.edge ∧ (b.ended = none ∨ b.stamp = none)) →
      st = assembleStamp c.reading off f.comp.toNat coarse → t = s.handEdge (.line l) c off coarse →
      (∀ v, f.ended = some v → t = { s with
        lines := s.lines.set l { s.lines[l].counted v st with frames := before ++ after }
        arrivals := s.arrivals.set l (s.arrivals[l] ++
          [{ line := l, stamp := st, length := f.count, verdict := v, parse := f.progress.outcome f.fields }]) })
      ∧ (f.ended = none →
        t = s.updLine l fun x => { x with frames := before ++ { f with stamp := some st } :: after }))
    ∧ (∀ (c : Capture) (off : Nat) (coarse : Bool),
      (∀ b ∈ s.lines[l].frames, b.edge ≠ c.edge ∧ (b.ended = none ∨ b.stamp = none)) →
      s.handEdge (.line l) c off coarse = s))
  ∧ (∀ d : List Byte, parseFrame d = parsed d)
  ∧ ∀ p : Parse, p.progress.outcome p.fields = p

/-! ## The engine (05, 06) -/

/-- The engine takes the oldest arrival of a line. Without a key, or with one no entry holds, it is unmapped: the
line's counter increases and the record goes to the ports whose set has the line. With an entry it acts on that entry
alone, after the expiry of a gap deadline that was armed at this tick and is reached at it, and each of the records
goes to the ports whose level admits it. The key's scope is the pair of the line, which is its number divided by two,
in PAIRED mode, and the line in INDEPENDENT mode; an entry holds the key where scope, address and port are the same (05
R93, R94, R95, R100; 06 R122, R131). -/
def Obligations.ArrivalsAreTaken : Prop :=
  ∀ (l : Fin 8) (a : Arrival) (rest : List Arrival) (s u : State), s.running = true →
    s.arrivals[l] = a :: rest → u = { s with arrivals := s.arrivals.set l rest } →
    (∀ (key : Option Key) (cause : UnmappedCause) (set : Vector Bool 3),
      (∃ c, a.parse = .unkeyed c ∧ key = none ∧ cause = .unkeyed c)
        ∨ (∃ k n bs, a.parse = .keyed k n bs ∧ s.findKey (s.scopeOf a.line) k = none ∧ key = some k
            ∧ cause = .noChannel) →
      set = #v[s.unmapped[0].getLsbD a.line, s.unmapped[1].getLsbD a.line, s.unmapped[2].getLsbD a.line] →
      exec (.arrivalTake l) s = .next
        { u.updLine a.line fun x => { x with unmapped := satInc x.unmapped } with
          pool := { u.pool with fromEngine := u.pool.fromEngine ++
            if set = #v[false, false, false] then [] else
              [{ record := .unmapped { line := a.line, stamp := a.stamp, length := a.length, verdict := a.verdict
                                       key := key, cause := cause }
                 ports := set }] } })
    ∧ (∀ (k : Key) (n : Nat) (bs : List Byte) (i : Nat) (e e₀ e' : Entry) (rs₀ rs : List Record) (os : List Offer),
      a.parse = .keyed k n bs → s.findKey (s.scopeOf a.line) k = some (i, e) →
      (e₀, rs₀) = (if e.win.armedAt = some s.tick ∧ e.win.deadline.any (fun d => d.reached s.reading) = true then
        e.expire i s.now else (e, [])) →
      e₀.take s.tick i a n bs = (e', rs) →
      os = (((rs₀ ++ rs).map fun r =>
        ⟨r, #v[e'.levels[0].admits r, e'.levels[1].admits r, e'.levels[2].admits r]⟩).filter
          fun o => o.ports[0] || o.ports[1] || o.ports[2]) →
      exec (.arrivalTake l) s = .next
        { u with channels := tableSet i e' s.channels
                 pool := { s.pool with fromEngine := s.pool.fromEngine ++ os } }
      ∧ e'.levels = e.levels ∧ e'.scope = e.scope ∧ e'.addr = e.addr ∧ e'.port = e.port ∧ e'.fmt = e.fmt
      ∧ e'.gapUs = e.gapUs)
    ∧ (∀ (v : Level) (r : Record), (v = .none → v.admits r = false) ∧ (v = .all → v.admits r = true)
      ∧ (v = .leaders → (v.admits r = true ↔ ∀ x, r = .arrival x → x.cls = .leader ∨ x.cls = .late
        ∨ x.cls = .unsequenced ∨ x.cls = .follower ∧ x.overtook = true)))
    ∧ (∀ q : Fin 4, q.val = l.val / 2 → (s.pairModes[q] = .paired → s.scopeOf l = .pair q)
      ∧ (s.pairModes[q] = .independent → s.scopeOf l = .line l))
    ∧ (∀ (sc : Scope) (k : Key) (holds : Nat × Entry → Prop),
      holds = (fun q => q.2.scope = sc ∧ q.2.addr = k.addr ∧ q.2.port = k.port) →
      (s.findKey sc k = none ↔ ∀ q ∈ s.channels, ¬ holds q)
      ∧ (∀ q, s.findKey sc k = some q → q ∈ s.channels ∧ holds q))

/-- An arrival with a channel that touches no window. The sequence and the count are read where the payload holds them,
in the channel's byte order. A damaged frame is DAMAGED, with what its payload holds, the model's choice for its count
and RANGE_CUT (log entry 14); a payload that does not hold a field of the format is SHORT, without fields; a channel of
mode NONE makes it UNSEQUENCED, a leader of its line. Each is counted and recorded, and everything else of the entry
stays; any other arrival is sequenced. The leader counter of the A line counts for the even line of the pair and for
the line of a LINE scope (04 R89; 05 R94, R104; 06 R112, R130). -/
def Obligations.UnplacedArrivals : Prop :=
  ∀ (tick i n : Nat) (a : Arrival) (bs : List Byte) (e : Entry) (seq : Option (BitVec 32)) (count : Option Nat)
    (number : BitVec 8 → Nat → ByteOrder → Option Nat),
    number = (fun off k o => if off.toNat + k ≤ n then
      some (match o with
        | .msbFirst => beNat ((bs.drop off.toNat).take k)
        | .lsbFirst => beNat ((bs.drop off.toNat).take k).reverse) else none) →
    seq = (match e.fmt with
      | .none => none
      | .packet off o => (number off 4 o).map (BitVec.ofNat 32)
      | .message off o _ => (number off 4 o).map (BitVec.ofNat 32)) →
    count = (match e.fmt with
      | .none => none
      | .packet _ _ => none
      | .message _ o off => number off 2 o) →
    ∀ r : ArrivalRecord, r = { index := i, cls := .damaged, line := a.line, stamp := a.stamp, length := a.length
                               verdict := a.verdict, seq := none, count := none, lag := none, marks := none
                               overtook := false, acrossEpoch := false, rangeCut := false, rebased := false } →
    (a.verdict ≠ .none → e.take tick i a n bs =
      ({ e with cnt := { e.cnt with damaged := satInc e.cnt.damaged } },
       [.arrival { r with seq := seq, count := count.map fun c => max 1 (min 64 c)
                          rangeCut := count.any fun c => c < 1 || 64 < c }]))
    ∧ (a.verdict = .none → e.fmt ≠ .none →
      (seq = none ∨ (count = none ∧ ∃ off o off', e.fmt = .message off o off') →
        e.take tick i a n bs = ({ e with cnt := { e.cnt with short := satInc e.cnt.short } },
          [.arrival { r with cls := .short }]))
      ∧ (∀ x, seq = some x → (count ≠ none ∨ ∃ off o, e.fmt = .packet off o) →
        e.take tick i a n bs = e.takeSequenced tick i a x count))
    ∧ (a.verdict = .none → e.fmt = .none →
      e.take tick i a n bs = ({ e with cnt := if e.isA a.line then { e.cnt with leaderA := satInc e.cnt.leaderA }
                                              else { e.cnt with leaderB := satInc e.cnt.leaderB } },
        [.arrival { r with cls := .unsequenced }]))
    ∧ (∀ l : Fin 8, e.isA l = true ↔ (∃ k, e.scope = .line k) ∨ l.val % 2 = 0)

/-- What a sequenced arrival does to a window that it does not advance. The range is 1, or the count read, clamped to 1
to 64. With no base it sets the base and is the LEADER. In the window it is classified by its slot, its range is marked
slot by slot, the highest marked sequence rises, the stale run ends, and a gap deadline is armed from its stamp, kept
or disarmed by the holes. Behind the base it is STALE, and the 64th in a row rebases the window, with a GAP record
before its own. The record tells all of it (06 R111 to R115, R110, R122, R123, R127 to R131). -/
def Obligations.SequencedArrivalsMarkTheirRange : Prop :=
  (∀ n : Nat, rangeCount (some n) = max 1 (min 64 n) ∧ rangeCount none = 1)
  ∧ ∀ (tick i : Nat) (a : Arrival) (x : BitVec 32) (count : Option Nat) (e e' : Entry) (rs : List Record) (c : Nat)
      (fresh : PairWindow),
    c = rangeCount count → e.takeSequenced tick i a x count = (e', rs) →
    fresh = { base := some x
              slots := List.replicate c (.seen a.line a.stamp) ++ List.replicate (64 - c) .vacant
              highest := some (x + BitVec.ofNat 32 (c - 1)), deadline := none, armedAt := none, stale := 0 } →
    (e.win.base = none →
      e' = { e with win := fresh, cnt := e.cnt.classified (.plain .leader .vacant) (e.isA a.line) }
      ∧ rs = [.arrival (markedRecord i a x count (.plain .leader .vacant) (c, 0) false)])
    ∧ (∀ (b : BitVec 32) (d : Nat) (m : Mark) (f g : Nat → Slot) (hole : Bool), e.win.Ok → e.win.base = some b →
      d = (x - b).toNat → d + c ≤ 64 → f = (fun j => e.win.slots.getD j .vacant) →
      g = (fun j => e'.win.slots.getD j .vacant) → m = classify a.line a.stamp (f d) →
      (hole = true ↔ ∃ j, j < e'.win.top ∧ g j = .vacant) →
      e' = { e with
        win := { base := some b, slots := e'.win.slots, highest := e'.win.highest
                 deadline := deadlineAfter e.win.deadline (hole = true) a.stamp e.gapUs
                 armedAt := if hole then (if e.win.deadline.isSome then e.win.armedAt else some tick) else none
                 stale := 0 }
        cnt := e.cnt.classified m (e.isA a.line) }
      ∧ e'.win.slots.length = 64 ∧ MarksRange a d c m.slot f g ∧ e'.win.top = max e.win.top (d + c - 1)
      ∧ e'.win.highest = (if e.win.top < d + c - 1 then some (x + BitVec.ofNat 32 (c - 1)) else e.win.highest)
      ∧ rs = [.arrival (markedRecord i a x count m
          ((List.range c).countP (fun j => f (d + j) = .vacant), (List.range c).countP fun j => f (d + j) = .lost)
          false)])
    ∧ (∀ (b : BitVec 32), e.win.base = some b → 2 ^ 31 ≤ (x - b).toNat → e.win.stale + 1 < 64 →
      e' = { e with win := { e.win with stale := e.win.stale + 1 }, cnt := { e.cnt with stale := satInc e.cnt.stale } }
      ∧ rs = [.arrival { markedRecord i a x count (.plain .stale .vacant) (0, 0) false with marks := none }])
    ∧ (∀ (b : BitVec 32), e.win.base = some b → 2 ^ 31 ≤ (x - b).toNat → e.win.stale + 1 = 64 →
      e' = { e with
        win := fresh
        cnt := ChannelCounters.classified (.plain .leader .vacant) (e.isA a.line)
          { e.cnt with stale := satInc e.cnt.stale, rebases := satInc e.cnt.rebases } }
      ∧ rs = [.gap { index := i, cause := .rebase, first := b, count := none, baseAfter := x, stamp := a.stamp },
              .arrival (markedRecord i a x count (.plain .leader .vacant) (c, 0) true)])

/-- A sequenced arrival whose range ends beyond the window advances it so that its range is the last that it holds. The
sequences that leave the window OPEN, and those between the window and its new place, are declared missing: each run of
them is one OVERRUN record, in rising order, before the arrival's own, and all are counted. The arrival then marks its
range in the advanced window (06 R112, R114, R115, R120, R121, R122, R127, R131). -/
def Obligations.AdvancesDeclareOverruns : Prop :=
  ∀ (tick i : Nat) (a : Arrival) (x b : BitVec 32) (count : Option Nat) (e e' : Entry) (rs : List Record)
    (c d n : Nat) (m : Mark) (f g : Nat → Slot) (hole : Bool),
    c = rangeCount count → e.takeSequenced tick i a x count = (e', rs) → e.win.Ok → e.win.base = some b →
    d = (x - b).toNat → d < 2 ^ 31 → 64 < d + c → n = d + c - 64 →
    f = (fun j => e.win.slots.getD (j + n) .vacant) → g = (fun j => e'.win.slots.getD j .vacant) →
    m = classify a.line a.stamp (f (64 - c)) → (hole = true ↔ ∃ j, j < 63 ∧ g j = .vacant) →
    ∃ runs, RunsOf (fun j => e.win.slots.getD j .vacant = .vacant) n runs
      ∧ e' = { e with
        win := { base := some (b + BitVec.ofNat 32 n), slots := e'.win.slots
                 highest := some (x + BitVec.ofNat 32 (c - 1))
                 deadline := deadlineAfter e.win.deadline (hole = true) a.stamp e.gapUs
                 armedAt := if hole then (if e.win.deadline.isSome then e.win.armedAt else some tick) else none
                 stale := 0 }
        cnt := ChannelCounters.classified m (e.isA a.line)
          { e.cnt with gaps := satAdd e.cnt.gaps (runs.map Prod.snd).sum } }
      ∧ e'.win.slots.length = 64 ∧ e'.win.top = 63 ∧ MarksRange a (64 - c) c m.slot f g
      ∧ rs = gapsOf i .overrun b (b + BitVec.ofNat 32 n) a.stamp runs ++
          [.arrival (markedRecord i a x count m
            ((List.range c).countP (fun j => f (64 - c + j) = .vacant),
             (List.range c).countP fun j => f (64 - c + j) = .lost) false)]

/-- The classification of an arrival by the slot of its first sequence, with the lag, the epochs of the two
stamps and overtaking; what a later sequence of its range makes of its slot; and the counter each classification moves.
An overtaking takes one leader from the other line and counts one for this line, but for a leader counter at its limit,
which stays (05 R104; 06 R114, R115, R117, R118, R119). That a leader count of 0 stays 0 is the model's choice (log
entry 15). -/
def Obligations.ClassificationFollowsTheSlot : Prop :=
  (∀ (l k : Fin 8) (st sk : Stamp) (lag : Int), k ≠ l →
    lag = max (-2147483647) (min 2147483647
      (((st.sec * 1000000000 + st.ns) * 256 + st.sub : Nat)
        - ((sk.sec * 1000000000 + sk.ns) * 256 + sk.sub : Nat) : Int)) →
    classify l st .vacant = ⟨.leader, .seen l st, none, false, false⟩
    ∧ classify l st (.seen l sk) = ⟨.repeated, .seen l sk, none, false, false⟩
    ∧ classify l st (.paired k sk) = ⟨.repeated, .paired k sk, none, false, false⟩
    ∧ classify l st (.paired l sk) = ⟨.repeated, .paired l sk, none, false, false⟩
    ∧ classify l st .lost = ⟨.late, .recovered, none, false, false⟩
    ∧ classify l st .recovered = ⟨.repeated, .recovered, none, false, false⟩
    ∧ (st.epoch ≠ sk.epoch → classify l st (.seen k sk) = ⟨.follower, .paired k sk, none, false, true⟩)
    ∧ (st.epoch = sk.epoch → 0 ≤ lag → classify l st (.seen k sk) = ⟨.follower, .paired k sk, some lag, false, false⟩)
    ∧ (st.epoch = sk.epoch → lag < 0 → classify l st (.seen k sk) = ⟨.follower, .paired l st, some lag, true, false⟩)
    ∧ markLater l st .vacant = .seen l st ∧ markLater l st (.seen l sk) = .seen l sk
    ∧ markLater l st (.seen k sk) = .paired k sk ∧ markLater l st (.paired k sk) = .paired k sk
    ∧ markLater l st (.paired l sk) = .paired l sk
    ∧ markLater l st .lost = .recovered ∧ markLater l st .recovered = .recovered)
  ∧ (∀ (c : ChannelCounters) (isA : Bool) (m : Mark) (t : ChannelCounters), t = c.classified m isA →
    (m.cls = .leader ∨ m.cls = .unsequenced → t = if isA then { c with leaderA := satInc c.leaderA }
      else { c with leaderB := satInc c.leaderB })
    ∧ (m.cls = .follower → m.overtook = false → t = { c with followers := satInc c.followers })
    ∧ (m.cls = .follower → m.overtook = true →
      t = if isA then
          { c with followers := satInc c.followers, leaderA := satInc c.leaderA
                   leaderB := if c.leaderB = 4294967295 then c.leaderB else c.leaderB - 1 }
        else
          { c with followers := satInc c.followers, leaderB := satInc c.leaderB
                   leaderA := if c.leaderA = 4294967295 then c.leaderA else c.leaderA - 1 })
    ∧ (m.cls = .repeated → t = { c with repeats := satInc c.repeats })
    ∧ (m.cls = .late → t = { c with late := satInc c.late }))

/-- The expiry of a gap deadline: every hole becomes LOST, no other slot changes, the deadline is disarmed, and each
contiguous run of holes, in rising order, makes one TIMEOUT record with its first sequence, its length, the base and
the reading of the tick, for the ports whose level is not NONE; the gap counter rises by all of them. An expiry that is
reached at the tick at which its deadline was armed is taken before the next event of the entry (06 R122, R124, R127,
R131). -/
def Obligations.GapDeadlinesDeclareHoles : Prop :=
  ∀ (i : Fin 512) (e : Entry) (d : Deadline) (s : State), s.running = true → tableGet i s.channels = some e →
    e.win.deadline = some d →
    (d.reached s.reading = true → e.win.Ok → ∀ b, e.win.base = some b →
      ∃ (e' : Entry) (runs : List (Nat × Nat)),
        RunsOf (fun j => e.win.slots.getD j .vacant = .vacant) e.win.top runs
        ∧ exec (.gapDeadlineExpiry i) s = .next
          { s with
            channels := tableSet i e' s.channels
            pool := { s.pool with
              fromEngine := s.pool.fromEngine ++ gapOffers e (gapsOf i .timeout b b s.now runs) } }
        ∧ e' = { e with
            win := { e.win with slots := e'.win.slots, deadline := none, armedAt := none }
            cnt := { e.cnt with gaps := satAdd e.cnt.gaps (runs.map Prod.snd).sum } }
        ∧ e'.win.slots.length = 64
        ∧ (∀ j, j < 64 → e'.win.slots.getD j .vacant =
            if j < e.win.top ∧ e.win.slots.getD j .vacant = .vacant then .lost else e.win.slots.getD j .vacant))
    ∧ (d.reached s.reading = false → exec (.gapDeadlineExpiry i) s = .next s)
    ∧ ((s.channels.map Prod.fst).Pairwise (· < ·) →
      (e.win.armedAt = some s.tick → d.reached s.reading = true →
        exec (.gapDeadlineExpiry i) s = .next (s.overdue fun k => k = i.val))
      ∧ (e.win.armedAt ≠ some s.tick ∨ d.reached s.reading = false → (s.overdue fun k => k = i.val) = s))

/-! ## The marker unit (07) -/

/-- A raw edge. Under OFF the qualified level follows the pin. Otherwise an edge away from the qualified level becomes
the candidate, or is qualified at once at width 0, one back to it cancels a candidate as a glitch, and a selected edge
is presented. Where 14 edges wait for their stamps, those due are accepted first, which is the model's choice (log
entry 2). While the core is held or frozen the sampled level alone follows the pin. A candidate at its qualification
tick becomes the qualified level, and a selected one is accepted: counted, logged, pending and in the attention summary
at every port not DOWN, handed to the pool. An edge handed over that belongs to the candidate gives it its stamp; one
that belongs to the front of the waiting list is accepted at once, and one that belongs to a later entry gives that its
stamp; one that belongs to none is discarded (07 R133, R135 to R142, R144; 08 R161). That the edge latches the
compensation here, whatever is written before its capture at the same tick, is the model's reading (log entry 42). -/
def Obligations.MarkerEdgesAreFiltered : Prop :=
  ∀ (m : Fin 4) (d : Direction) (y : Marker) (s : State), s.running = true → s.markers[m] = y →
    (y.level ≠ edgeLevel d → y.rawSeen < 2 → y.waiting.length < 14 → ∀ u y' : Marker,
      u = { y with level := edgeLevel d, rawSeen := y.rawSeen + 1 } →
      (y.settings.select = .off →
        exec (.markerRawEdge m d) s = .next (s.updMarker m fun _ => { u with qualified := edgeLevel d }))
      ∧ (y.settings.select ≠ .off →
        y' = (if edgeLevel d = y.qualified then
            (if y.candidate.isSome then { u with candidate := none, glitches := satInc y.glitches } else u)
          else if y.candidate.isSome then u
          else if y.settings.width = 0 then
            { u with qualified := edgeLevel d
                     waiting := y.waiting ++ if y.settings.select.names d then
                       [{ dir := d, comp := y.settings.comp, edge := s.edgeSeq, stamp := none }] else [] }
          else
            { u with candidate := some { dir := d, captureTick := s.tick
                                         qualTick := s.tick + y.settings.widthTicks
                                         selected := y.settings.select.names d, comp := y.settings.comp
                                         edge := s.edgeSeq, stamp := none } }) →
        (∃ t, exec (.markerRawEdge m d) s = .next t ∧ t.markers = s.markers.set m y'
          ∧ (y.settings.select.names d = false → t = { s with markers := t.markers })
          ∧ (y.settings.select.names d = true →
            t = { State.updInterp (.marker m) (fun x => { x with presented := x.presented ++ [s.edgeSeq] }) s with
              markers := t.markers, edgeSeq := s.edgeSeq + 1 }))))
    ∧ (y.level ≠ edgeLevel d → y.rawSeen < 2 → 14 ≤ y.waiting.length → ∀ u, u = s.dueEdges (.marker m) →
      (u.markers[m].waiting.length < 14 → exec (.markerRawEdge m d) s = exec (.markerRawEdge m d) u)
      ∧ (14 ≤ u.markers[m].waiting.length → exec (.markerRawEdge m d) s = .next u))
    ∧ (∀ c, y.candidate = some c → c.qualTick ≤ s.tick →
      (c.selected = false →
        exec (.markerQualification m) s = .next (s.updMarker m fun y =>
          { y with candidate := none, qualified := edgeLevel c.dir }))
      ∧ (∀ st, c.selected = true → c.stamp = some st →
        exec (.markerQualification m) s = .next
          (s.accepted m { y with candidate := none, qualified := edgeLevel c.dir } c.dir st)))
    ∧ (y.candidate = none ∨ (∃ c, y.candidate = some c ∧ s.tick < c.qualTick) →
      exec (.markerQualification m) s = .next s)
    ∧ (∀ (c : Capture) (off : Nat) (coarse : Bool) (t : State) (stampOf : BitVec 16 → Stamp),
      t = s.handEdge (.marker m) c off coarse →
      stampOf = (fun comp => assembleStamp c.reading off comp.toNat coarse) →
      (∀ k, y.candidate = some k → k.edge = c.edge → k.selected = true → k.stamp = none →
        (∀ w ∈ y.waiting, w.edge ≠ c.edge ∧ w.stamp = none) →
        t = s.updMarker m fun _ => { y with candidate := some { k with stamp := some (stampOf k.comp) } })
      ∧ ((∀ k ∈ y.candidate, k.edge ≠ c.edge) →
        (∀ w ws, y.waiting = w :: ws → w.edge = c.edge → w.stamp = none → (∀ x ∈ ws, x.edge ≠ c.edge) →
          t = s.accepted m { y with waiting := ws } w.dir (stampOf w.comp))
        ∧ (∀ before w after, y.waiting = before ++ w :: after → before ≠ [] → w.edge = c.edge → w.stamp = none →
          (∀ x, x ∈ before ∨ x ∈ after → x.edge ≠ c.edge ∧ x.stamp = none) →
          t = s.updMarker m fun _ =>
            { y with waiting := before ++ { w with stamp := some (stampOf w.comp) } :: after })
        ∧ ((∀ w ∈ y.waiting, w.edge ≠ c.edge ∧ w.stamp = none) → t = s)))
    ∧ edgeLevel .rising = true ∧ edgeLevel .falling = false
    ∧ (∀ sel : EdgeSelect, sel.names d = true ↔ sel = .both ∨ sel = .rising ∧ d = .rising
      ∨ sel = .falling ∧ d = .falling)
    ∧ (∀ r : State, r.running = false →
      exec (.markerRawEdge m d) r = .next (r.updMarker m fun y => { y with level := edgeLevel d }))

/-! ## The pool (08) -/

/-- The pool takes the oldest record of a maker and offers it as one whole: a port of its set in STREAMING or HELD
takes it below its quota and loses it otherwise, with the loss total, the lagging condition and LOSS; any other port is
not offered it. The record stands in one entry with as many references as ports took it, or in none; a queue that ends
releases its references, and an entry without one is FREE (08 R147, R150, R151, R155). A notice raised at a port not
DOWN sets the bit of its kind in the attention summary; in STREAMING and HELD it joins the end of the pending notices
with a repeat count of 1, or, where one of its kind is pending, gives that its values in its place and counts the
repeat, but that a LOSS keeps its first stamp and counts the record (08 R156 to R158, R161). A notice that is amended
takes the values without counting, which is the model's choice for two changes of class at one tick (log entry 7). The
silence timer runs exactly in the silence condition, and lagging clears below the quota (09 R170, 08 R155). -/
def Obligations.RecordsAreOfferedToTheirPorts : Prop :=
  (∀ (src : RecordSource) (o : Offer) (rest : List Offer) (s : State), s.running = true →
    (match src with | .engine => s.pool.fromEngine | .markers => s.pool.fromMarkers) = o :: rest →
    ∃ t, exec (.recordOffer src) s = .next t
      ∧ t = { s with pool := t.pool, ports := t.ports }
      ∧ t.pool.fromEngine = (match src with | .engine => rest | .markers => s.pool.fromEngine)
      ∧ t.pool.fromMarkers = (match src with | .engine => s.pool.fromMarkers | .markers => rest)
      ∧ (∀ p : Fin 3, ∀ q : Port, q = s.ports[p] →
        t.ports[p] = Port.settle s.tick
          (if o.ports[p] = false ∨ q.inService = false then q
          else if q.queue.length < q.quota then { q with queue := q.queue ++ [s.pool.next] }
          else ({ q with lossTotal := satInc q.lossTotal, lagging := true } : Port).notify
            (.loss 1 o.record.stamp o.record.stamp (satInc q.lossTotal))))
      ∧ (∀ n, n = allPorts.countP (fun p => o.ports[p] && s.ports[p].inService
            && decide (s.ports[p].queue.length < s.ports[p].quota)) →
        t.pool.entries = if n = 0 then s.pool.entries
          else s.pool.entries ++ [{ id := s.pool.next, record := o.record, refs := n }]))
  ∧ (∀ src : RecordSource, ∀ s : State,
    (match src with | .engine => s.pool.fromEngine | .markers => s.pool.fromMarkers) = [] →
    exec (.recordOffer src) s = .next s)
  ∧ (∀ (b : NoticeBody) (q : Port) (att : BitVec 9),
    att = (if q.state = .down then q.attention else q.attention ||| BitVec.ofNat 9 (2 ^ noticeKind b)) →
    (q.inService = true ↔ q.state = .streaming ∨ q.state = .held)
    ∧ (q.inService = false → q.notify b = { q with attention := att } ∧ q.amend b = { q with attention := att })
    ∧ (q.inService = true → (∀ n ∈ q.notices, noticeKind n.body ≠ noticeKind b) →
      ∀ r, r = { q with attention := att, notices := q.notices ++ [{ body := b, repeats := 1 }] } →
      q.notify b = r ∧ q.amend b = r)
    ∧ (∀ before n after, q.inService = true → q.notices = before ++ n :: after →
      (∀ x ∈ before, noticeKind x.body ≠ noticeKind b) → noticeKind n.body = noticeKind b → ∀ merged : NoticeBody,
      merged = (match n.body, b with
        | .loss c first _ _, .loss _ _ last total => .loss (min (c + 1) 4294967295) first last total
        | _, _ => b) →
      q.notify b = { q with
        attention := att
        notices := before ++ { body := merged, repeats := min (n.repeats + 1) 65535 } :: after }
      ∧ q.amend b = { q with attention := att, notices := before ++ { n with body := b } :: after }))
  ∧ (∀ (b : NoticeBody) (s : State), s.notifyAll b = { s with
    ports := #v[Port.settle s.tick (s.ports[0].notify b), Port.settle s.tick (s.ports[1].notify b),
                Port.settle s.tick (s.ports[2].notify b)] })
  ∧ (∀ (n : Nat) (q : Port), Port.settle n q = { q with
    silenceTimer :=
      if q.state = .streaming ∧ q.credits = 0 ∧ q.queue ≠ [] then
        some (q.silenceTimer.getD (n + q.pacing.silenceTicks))
      else none
    lagging := q.lagging && decide (q.quota ≤ q.queue.length) })
  ∧ (∀ (ids : List Nat) (s : State), s.releaseIds ids = { s with pool := { s.pool with
    entries := s.pool.entries.filterMap fun e =>
      if e.id ∈ ids then (if e.refs ≤ 1 then none else some { e with refs := e.refs - 1 }) else some e } })

/-! ## The clock monitor (10) -/

/-- The rows that act on the monitor alone, and POWER_ON, which gives every block its power-on values. The start-up
delay ends only with the core supply above its threshold and VIO present, and before RUN a stop of the core clock holds
the clock-good count at 0. A cycle without a tick sets the clock-good count to 0 and counts on, up to 32, in every
state; a row of another state does nothing, by log entry 3 (10 R183, R184, R186). The model's choices: POWER_ON leaves
the pins as they are (log entry 12); the counts jump to their ends (log entry 8); SUPPLY_RECOVERY in STARTUP stands for
the rise of VIO where the core supply is not low, and POWER_ON leaves VIO as it is (log entry 38); a fall before the
first release enters STARTUP at once and waits there (log entry 40); CLOCK_DROPOUT is one RC cycle without a tick, and
in RUN no stop, and CLOCK_GOOD_COUNT_COMPLETE acts in every state but STOPPED (log entry 30). -/
def Obligations.MonitorCountsAndStates : Prop :=
  ∀ s : State,
    (∃ t, exec .powerOn s = .next t
      ∧ t = { State.reset with pending := s.pending, free := s.free, straps := s.straps, rstnLow := s.rstnLow
                               markers := t.markers, mon := { Monitor.reset with vio := s.mon.vio } }
      ∧ ∀ m : Fin 4, t.markers[m] = { Marker.reset with level := s.markers[m].level })
    ∧ (s.mon.phase = .startup →
      (s.mon.supplyLow = false → s.mon.vio = true → exec .startupDelayEnd s =
        .next { s with mon := { s.mon with phase := .clockQualify, rc := 65536 } })
      ∧ (s.mon.supplyLow = true ∨ s.mon.vio = false → exec .startupDelayEnd s = .next s))
    ∧ (s.mon.phase = .dipRecovery →
      exec .dipRecoveryEnd s = .next { s with mon := { s.mon with phase := .clockQualify, rc := 4096 } })
    ∧ (s.mon.phase = .dip →
      exec .supplyRecovery s = .next { s with mon := { s.mon with phase := .dipRecovery, rc := 0 } })
    ∧ (s.mon.phase = .startup →
      (s.mon.supplyLow = true → exec .supplyRecovery s = .next { s with mon := { s.mon with supplyLow := false } })
      ∧ (s.mon.supplyLow = false → exec .supplyRecovery s = .next { s with mon := { s.mon with vio := true } }))
    ∧ (s.mon.phase = .startup ∨ s.mon.phase = .clockQualify ∧ s.mon.cause = .powerOn →
      exec .supplyDip s = .next { s with mon := { s.mon with phase := .startup, rc := 0, supplyLow := true } })
    ∧ (s.mon.phase ≠ .run ∨ s.mon.noTick + 1 < 32 →
      exec .clockDropout s = .next { s with mon := { s.mon with good := 0, noTick := min (s.mon.noTick + 1) 32 } })
    ∧ (s.mon.phase = .run → 32 ≤ s.mon.noTick + 1 → exec .clockDropout s = .next s)
    ∧ (s.mon.phase ≠ .run →
      exec .clockStop s = .next { s with mon := { s.mon with noTick := 32, good := 0 } })
    ∧ (s.mon.phase ≠ .stopped →
      exec .clockGoodCountComplete s = .next { s with mon := { s.mon with good := 4096, noTick := 0 } })
    ∧ (s.mon.phase = .stopped → exec .clockGoodCountComplete s = .next s)
    ∧ (s.mon.phase ≠ .startup → exec .startupDelayEnd s = .next s)
    ∧ (s.mon.phase ≠ .dipRecovery → exec .dipRecoveryEnd s = .next s)
    ∧ (s.mon.phase ≠ .dip → s.mon.phase ≠ .startup → exec .supplyRecovery s = .next s)
    ∧ (s.mon.phase = .dip → exec .supplyDip s = .next s)

/-- The release of the core, after a stop at the first tick and else once the clock-good count is complete: INVALID
set, UNSET with the rate kept, a collection on every interpolator, every line DARK or DISABLED, every qualified level
the sampled one, permits sampled after power-on alone, INVALID raised with its cause, the first increment added to the
held value, with a rollover where it passes the end of the second, and at the last second with the value held at its
maximum; the settings, the counters and all else of each block stay (10 R187, R188; 01 R1, R16, R17, R23; 03 R65, R71;
04 R77, R92; 07 R144; 08 R158, R164; 09 R182). RSTN is high and not latched here; `ReleaseTakesRstn` has the other
releases. That the rollover then waits as at any tick, and that a CORE_TICK releases a core that waits for one, with
the strap levels last seen, are the model's choices (log entries 4 and 5), and so is the order in which the lines
change, L0 first, each raising LINE (log entry 33), and that the sampled level is that of the pin as the release is
taken (log entry 34). -/
def Obligations.TheCoreIsReleased : Prop :=
  (∀ s : State, (s.releaseReady = true ↔ s.mon.phase = .stopped ∨ s.mon.phase = .clockQualify ∧ s.mon.good = 4096)
    ∧ (s.releaseReady = true → exec .coreTick s = exec (.coreRelease s.straps) s)
    ∧ (s.releaseReady = false → ∀ straps, exec (.coreRelease straps) s = .next s))
  ∧ ∀ (straps : BitVec 3) (s : State),
    s.mon.phase = .stopped ∨ s.mon.phase = .clockQualify ∧ s.mon.good = 4096 →
    s.rstnLow = false → s.mon.latched = false →
    ∃ t, exec (.coreRelease straps) s = .next t
      ∧ t = { s with
          straps := straps, tick := s.tick + 1, time := t.time, rolled := t.rolled, secp := false, secpFell := none
          mon := { s.mon with phase := .run, noTick := 0, invalid := true }
          disc := t.disc, interps := t.interps, lines := t.lines, markers := t.markers, ports := t.ports
          calExpiry := s.disc.settings.calTicks.map fun n => s.tick + 1 + n }
      ∧ t.disc = { s.disc.clear with qualityAt :=
          (if (s.disc.state ≠ .unset ∨ s.disc.suspect = true) ∧ s.disc.qualityAt.map Prod.fst ≠ some (s.tick + 1) then
            some (s.tick + 1, s.disc.state)
          else s.disc.qualityAt) }
      ∧ (∀ w, w = s.time.within + increment s.disc.rate 0 →
        (w < Config.unitsPerSec →
          t.time = { s.time with
            inc := increment s.disc.rate 0, ns := w / 2 ^ 32, frac := w % 2 ^ 32, excess := 0 }
          ∧ t.rolled = .none)
        ∧ (Config.unitsPerSec ≤ w → s.time.sec < 2 ^ 40 - 1 →
          t.time = { s.time with
            inc := increment s.disc.rate 0, sec := s.time.sec + 1, ns := (w - Config.unitsPerSec) / 2 ^ 32
            frac := (w - Config.unitsPerSec) % 2 ^ 32, excess := 0 }
          ∧ t.rolled = (if s.rolled = .early then .taken else .waiting))
        ∧ (Config.unitsPerSec ≤ w → 2 ^ 40 - 1 ≤ s.time.sec →
          t.time = { s.time with
            inc := increment s.disc.rate 0, sec := 2 ^ 40 - 1, ns := 999999999, frac := 2 ^ 32 - 1
            excess := w - (Config.unitsPerSec - 1) }
          ∧ t.rolled = .none))
      ∧ (∀ i : Fin 13, t.interps[i] = { s.interps[i] with
          presented := [], captured := 0, conv := none, sample := none, lastEnd := none, coarse := []
          collection := some { bins := Vector.replicate 32 0, samples := 0 } })
      ∧ (∀ l : Fin 8, t.lines[l] = { s.lines[l] with
          state := s.restState l, lock := false, quiet := none, frames := [] })
      ∧ (∀ m : Fin 4, t.markers[m] = { s.markers[m] with
          rawSeen := 0, qualified := s.markers[m].level, candidate := none, waiting := [] })
      ∧ (∀ p : Fin 3, t.ports[p] = Port.settle (if s.mon.cause = .powerOn then s.tick else s.tick + 1)
            (s.toldOfRelease { s.ports[p] with
              permit := if s.mon.cause = .powerOn then straps.getLsbD p else s.ports[p].permit })
          ∧ (s.ports[p].inService = true → ∃ n ∈ t.ports[p].notices, n.body = .invalid (some s.mon.cause))
          ∧ ∀ l : Fin 8, s.ports[p].inService = true → s.lines[l].state ≠ s.restState l →
            (∀ k : Fin 8, l < k → s.lines[k].state = s.restState k) →
            ∃ n ∈ t.ports[p].notices, n.body = .line l s.lines[l].state (s.restState l) (.ofFn s.restState))

/-- A release of the core with RSTN latched or low: its assertion is taken at the first tick, with every port DOWN,
every line DARK or DISABLED, windows, levels, subscriptions and pending sets empty, and the latch is cleared. Where its
release was latched, or the pin is high, that is taken at the next tick, with the permits of the strap pins; a pin that
is low by then is a new assertion, the model's choice (log entry 29). The tick that ends takes it, among what is due
then, which is the model's choice (log entry 2), and so is that what was handed over and not yet taken goes with the
windows and the queues (log entry 20), and that the sampled level of the release is that of the pin as the release is
taken (log entry 34) (10 R189; 09 R177; 03 R72; 07 R144). -/
def Obligations.ReleaseTakesRstn : Prop :=
  (∀ (straps : BitVec 3) (s : State),
    s.mon.phase = .stopped ∨ s.mon.phase = .clockQualify ∧ s.mon.good = 4096 →
    s.rstnLow = true ∨ s.mon.latched = true →
    ∃ t, exec (.coreRelease straps) s = .next t ∧ t.mon.phase = .run ∧ t.mon.invalid = true ∧ t.tick = s.tick + 1
      ∧ t.rstnLow = s.rstnLow ∧ t.rstnAsserted = true ∧ t.mon.latched = false ∧ t.mon.latchReleased = false
      ∧ t.rstnReleaseAt = (if s.mon.latchReleased = true ∨ s.rstnLow = false then some (s.tick + 2) else none)
      ∧ t.disc = { s.disc.clear with qualityAt := t.disc.qualityAt } ∧ t.time.inc = increment s.disc.rate 0
      ∧ t.pairModes = s.pairModes
      ∧ t.channels = tableMap (fun _ e =>
          { e with levels := #v[.none, .none, .none], win := .empty, cnt := .zero }) s.channels
      ∧ t.unmapped = #v[0, 0, 0] ∧ t.markerSubs = #v[0, 0, 0] ∧ t.pool.fromEngine = [] ∧ t.pool.fromMarkers = []
      ∧ (∀ i : Fin 13, t.interps[i].collection = some { bins := Vector.replicate 32 0, samples := 0 }
          ∧ t.interps[i].table = s.interps[i].table ∧ t.interps[i].busy = s.interps[i].busy)
      ∧ (∀ m : Fin 4, t.markers[m] = { s.markers[m] with
          rawSeen := 0, qualified := s.markers[m].level, candidate := none, waiting := [] })
      ∧ (∀ l : Fin 8, t.arrivals[l] = [] ∧ t.lines[l] = { s.lines[l] with
          state := if s.lines[l].settings.enable then .dark else .disabled
          lock := false, quiet := none, frames := [], frameCount := 0, damaged := 0, unmapped := 0
          coarseCount := 0 })
      ∧ (∀ p : Fin 3, t.ports[p].state = .down ∧ t.ports[p].cause = .none ∧ t.ports[p].queue = []
          ∧ t.ports[p].counters = .zero ∧ t.ports[p].lossTotal = 0 ∧ t.ports[p].cmds = [] ∧ t.ports[p].tx = none
          ∧ t.ports[p].attention = 0 ∧ t.markerPending[p] = #v[0, 0, 0, 0]
          ∧ t.ports[p].permit = (if s.mon.cause = .powerOn then straps.getLsbD p else s.ports[p].permit)))
  ∧ (∀ (n : Nat) (s : State), s.running = true → s.rstnReleaseAt = some n →
    ∃ t, exec .coreTick s = .next t
      ∧ (n ≤ s.tick → t.rstnAsserted = s.rstnLow ∧ t.rstnReleaseAt = none
        ∧ ∀ p : Fin 3, t.ports[p].permit = s.straps.getLsbD p)
      ∧ (s.tick < n → t.rstnAsserted = s.rstnAsserted ∧ t.rstnReleaseAt = some n
        ∧ ∀ p : Fin 3, t.ports[p].permit = s.ports[p].permit))

/-- A stop of the clock freezes the core as it stood after its last tick: the timescale, the settings, the windows, the
queues and the counts stay, and what is in flight is lost. A dip keeps the timescale's value, epoch and rate and the
settings, and gives everything else its supply-dip value (10 R185, R186; 01 R16, R23; 03 R71; 05 R107; 07 R144; 08
R164; 09 R182). The model's choices: a stop closes the last tick first, and which things are lost (log entry 19), in
the order of log entry 2; a dip closes no tick (log entry 36), sets INVALID and enters UNSET (log entry 23), and sets
the clock-good count to 0 in DIP_RECOVERY too (log entry 37); each puts an RSTN that stands asserted back into the
latch (10 R189; log entry 29). -/
def Obligations.AStopFreezesAndADipClears : Prop :=
  ∀ s : State,
    (s.running = true → ∀ u, u = s.closeTick →
      ∃ t, exec .clockStop s = .next t
        ∧ t = { u with
            mon := { u.latching with phase := .stopped, noTick := 32, good := 0, cause := .clockStop }
            rstnAsserted := false, rstnReleaseAt := none, secp := false, secpFell := none, calExpiry := none
            interps := t.interps, lines := t.lines, markers := t.markers, ports := t.ports }
        ∧ (∀ i : Fin 13, t.interps[i] = { u.interps[i] with
            presented := [], captured := 0, conv := none, sample := none, lastEnd := none, coarse := []
            collection := none })
        ∧ (∀ l : Fin 8, t.lines[l] = { u.lines[l] with frames := [] })
        ∧ (∀ m : Fin 4, t.markers[m] = { u.markers[m] with rawSeen := 0, candidate := none, waiting := [] })
        ∧ (∀ p : Fin 3, t.ports[p] = Port.settle u.tick { u.ports[p] with tx := none }))
    ∧ (s.mon.phase = .run ∨ s.mon.phase = .stopped ∨ s.mon.phase = .dipRecovery
        ∨ s.mon.phase = .clockQualify ∧ s.mon.cause ≠ .powerOn →
      ∃ t, exec .supplyDip s = .next t
        ∧ t = { s with
            mon := { s.latching with phase := .dip, rc := 0, good := 0, cause := .supplyDip, invalid := true }
            rstnAsserted := false, rstnReleaseAt := none, secp := false, secpFell := none, calExpiry := none
            time := { s.time with inc := increment s.disc.rate 0, excess := 0 }, rolled := .none
            disc := s.disc.clear
            channels := tableMap (fun _ e =>
              { e with levels := #v[.none, .none, .none], win := .empty, cnt := .zero }) s.channels
            unmapped := #v[0, 0, 0], markerSubs := #v[0, 0, 0]
            pool := { s.pool with entries := [], fromEngine := [], fromMarkers := [] }
            interps := t.interps, lines := t.lines, arrivals := t.arrivals, markers := t.markers
            markerPending := t.markerPending, ports := t.ports }
        ∧ (∀ i : Fin 13, t.interps[i] = Interp.reset)
        ∧ (∀ l : Fin 8, t.arrivals[l] = [] ∧ t.lines[l] = { s.lines[l] with
            state := t.lines[l].state, lock := false, quiet := none, frames := [], frameCount := 0, damaged := 0
            unmapped := 0
            coarseCount := 0 })
        ∧ (∀ p : Fin 3, t.markerPending[p] = #v[0, 0, 0, 0])
        ∧ (∀ m : Fin 4, t.markers[m] = { Marker.reset with
            settings := s.markers[m].settings, level := s.markers[m].level, qualified := s.markers[m].qualified })
        ∧ (∀ p : Fin 3, t.ports[p] = Port.settle s.tick
            { Port.reset with quota := s.ports[p].quota, pacing := s.ports[p].pacing
                              permit := s.ports[p].permit }))

/-- RSTN. Its assertion takes every port to DOWN with cause NONE and its counters 0, every line to DARK or DISABLED
with its counters 0, and empties windows, levels, subscriptions and pending sets, while the timescale, the
discipline controller, the interpolators and the marker inputs go on. Its release samples the permits and zeroes
the busy, calibration and glitch counts. While the core is held or frozen the monitor latches both
(10 R189, 05 R107, 07 R144, 08 R164, 09 R177, R182). The model's choices: what was handed over and not yet taken goes
with the windows and the queues (log entry 20); an assertion that is not taken at an asserted RSTN (log entry 29). -/
def Obligations.RstnResetsPortsLinesAndWindows : Prop :=
  ∀ (straps : BitVec 3) (s : State),
    (s.running = true → s.rstnLow = false → s.rstnAsserted = false →
      ∃ t, exec .rstnAssertion s = .next t ∧ t.rstnLow = true ∧ t.rstnAsserted = true
        ∧ t.time = s.time ∧ t.disc = s.disc ∧ t.interps = s.interps ∧ t.markers = s.markers ∧ t.mon = s.mon
        ∧ t.pairModes = s.pairModes
        ∧ t.channels = tableMap (fun _ e =>
            { e with levels := #v[.none, .none, .none], win := .empty, cnt := .zero }) s.channels
        ∧ t.unmapped = #v[0, 0, 0] ∧ t.markerSubs = #v[0, 0, 0]
        ∧ (∀ p : Fin 3, t.markerPending[p] = #v[0, 0, 0, 0]) ∧ (∀ l : Fin 8, t.arrivals[l] = [])
        ∧ t.pool.fromEngine = [] ∧ t.pool.fromMarkers = []
        ∧ (∀ p : Fin 3, t.ports[p].state = .down ∧ t.ports[p].cause = .none ∧ t.ports[p].queue = []
            ∧ t.ports[p].counters = .zero ∧ t.ports[p].lossTotal = 0 ∧ t.ports[p].credits = 0
            ∧ t.ports[p].cmds = [] ∧ t.ports[p].tx = none ∧ t.ports[p].attention = 0
            ∧ t.ports[p].quota = s.ports[p].quota ∧ t.ports[p].pacing = s.ports[p].pacing
            ∧ t.ports[p].permit = s.ports[p].permit)
        ∧ (∀ l : Fin 8, t.lines[l] = { s.lines[l] with
            state := if s.lines[l].settings.enable then .dark else .disabled
            lock := false, quiet := none, frames := [], frameCount := 0, damaged := 0, unmapped := 0
            coarseCount := 0 }))
    ∧ (s.running = true → s.rstnLow = false → s.rstnAsserted = true →
      exec .rstnAssertion s = .next { s with rstnLow := true })
    ∧ (s.running = true → s.rstnLow = true → s.rstnAsserted = true → s.rstnReleaseAt = none →
      ∃ t, exec (.rstnRelease straps) s = .next t
        ∧ t = { s with rstnLow := false, rstnAsserted := false, straps := straps
                       ports := t.ports, interps := t.interps, markers := t.markers }
        ∧ (∀ p : Fin 3, t.ports[p] = Port.settle s.tick { s.ports[p] with permit := straps.getLsbD p })
        ∧ (∀ i : Fin 13, t.interps[i] = { s.interps[i] with busy := 0, calibrations := 0 })
        ∧ (∀ m : Fin 4, t.markers[m] = { s.markers[m] with glitches := 0 }))
    ∧ (s.running = false → s.rstnLow = false →
      exec .rstnAssertion s = .next { s with rstnLow := true, mon := { s.mon with latched := true } })
    ∧ (s.running = false → s.rstnLow = true →
      exec (.rstnRelease straps) s = .next
        { s with rstnLow := false, straps := straps, mon := { s.mon with latched := true, latchReleased := true } })

/-! ## What every step keeps -/

/-- The state after reset is good in every respect that the statements below say is kept. -/
def Obligations.ResetIsGood : Prop :=
  State.reset.TimeOk ∧ State.reset.SecpOk ∧ State.reset.DisciplineOk ∧ State.reset.InterpsOk ∧ State.reset.LinesOk
    ∧ State.reset.TableOk ∧ State.reset.MarkersOk ∧ State.reset.PortsOk ∧ State.reset.RstnOk ∧ State.reset.QuotasOk
    ∧ State.reset.PoolOk ∧ State.reset.MonitorOk

/-- Every step keeps the value of the timescale in its range, passed by some units only at its maximum, with the
increment that of the terms in force, the terms in their ranges, the slew at 0 and the deadlines disarmed where the
state has none, and UNSET with no label while INVALID is set; and SECP low after a fall, which at its own tick the
value has not gone back below (01 R1, R2, R17, R19, R20; 02 R25, R30, R49). How a fall is judged again is the model's
choice (log entry 18). -/
def Obligations.EveryStepKeepsTheTimescale : Prop :=
  ∀ s t : State, step s = .next t →
    (s.TimeOk → s.DisciplineOk → t.TimeOk ∧ t.DisciplineOk) ∧ (s.SecpOk → t.SecpOk)

/-- Every step keeps a converter at one thing at a time, at most 14 coarse edges waiting at it and 14 edges at a marker
input, tables of 65,536 samples, a line DISABLED exactly while
its enable is OFF and with block lock exactly in QUIET and LIVE, at most one frame open on a line, and at most four
records in a marker log (03 R57, R65; 04 R73, R75, R87; 07 R133, R135). -/
def Obligations.EveryStepKeepsTheInputs : Prop :=
  ∀ s t : State, s.InterpsOk → s.LinesOk → s.MarkersOk → step s = .next t →
    t.InterpsOk ∧ t.LinesOk ∧ t.MarkersOk

/-- Every step keeps the channel table: indexes rising below 512, one entry for a key, each scope in the mode of
its pair, and in each window 64 slots, a highest marked sequence inside, and a deadline armed exactly while there
is a hole (05 R93, R94, R96; 06 R108, R110, R123). -/
def Obligations.EveryStepKeepsTheChannelTable : Prop :=
  ∀ s t : State, s.TableOk → step s = .next t → t.TableOk

/-- Every step keeps what a port holds in each of its states: a silence timer exactly while the silence condition
holds, a hold timer exactly in HELD, nothing queued out of service, one pending notice of a kind; and while RSTN is
asserted every port is DOWN (08 R155, R157, R162; 09 R166, R169, R170; 10 R189). -/
def Obligations.EveryStepKeepsThePorts : Prop :=
  ∀ s t : State, s.PortsOk → s.RstnOk → step s = .next t → t.PortsOk ∧ t.RstnOk

/-- Every step keeps the record store: the commitments within 16,384, and an entry LIVE exactly while some queue
holds it, with one reference for each (08 R145, R151, R152). -/
def Obligations.EveryStepKeepsTheRecordStore : Prop :=
  ∀ s t : State, s.QuotasOk → s.PoolOk → step s = .next t → t.QuotasOk ∧ t.PoolOk

/-- Every step keeps the monitor: counts in their ranges, SECP low and INVALID set in a core that is held, the RSTN
latch empty in RUN, VIO present outside STARTUP (10 R183, R184, R187, R189; 01 R17, R19). -/
def Obligations.EveryStepKeepsTheMonitor : Prop :=
  ∀ s t : State, s.MonitorOk → step s = .next t → t.MonitorOk
end

