-- ==== Sys2Proof/Laws/State.lean ====
section
/-! SUPPORT. What each update of the state leaves in each field: every lemma holds by definition. -/

namespace Sys2Proof.Machine

/-! ### updInterp -/

@[simp] theorem State.updInterp_interps (i : Input) (f : Interp → Interp) (s : State) :
    (State.updInterp i f s).interps = s.interps.set (Input.index i) (f s.interps[Input.index i]) := rfl
@[simp] theorem State.updInterp_pending (i : Input) (f : Interp → Interp) (s : State) :
    (State.updInterp i f s).pending = s.pending := rfl
@[simp] theorem State.updInterp_tick (i : Input) (f : Interp → Interp) (s : State) :
    (State.updInterp i f s).tick = s.tick := rfl
@[simp] theorem State.updInterp_edgeSeq (i : Input) (f : Interp → Interp) (s : State) :
    (State.updInterp i f s).edgeSeq = s.edgeSeq := rfl
@[simp] theorem State.updInterp_free (i : Input) (f : Interp → Interp) (s : State) :
    (State.updInterp i f s).free = s.free := rfl
@[simp] theorem State.updInterp_rolled (i : Input) (f : Interp → Interp) (s : State) :
    (State.updInterp i f s).rolled = s.rolled := rfl
@[simp] theorem State.updInterp_mon (i : Input) (f : Interp → Interp) (s : State) :
    (State.updInterp i f s).mon = s.mon := rfl
@[simp] theorem State.updInterp_rstnLow (i : Input) (f : Interp → Interp) (s : State) :
    (State.updInterp i f s).rstnLow = s.rstnLow := rfl
@[simp] theorem State.updInterp_rstnAsserted (i : Input) (f : Interp → Interp) (s : State) :
    (State.updInterp i f s).rstnAsserted = s.rstnAsserted := rfl
@[simp] theorem State.updInterp_rstnReleaseAt (i : Input) (f : Interp → Interp) (s : State) :
    (State.updInterp i f s).rstnReleaseAt = s.rstnReleaseAt := rfl
@[simp] theorem State.updInterp_straps (i : Input) (f : Interp → Interp) (s : State) :
    (State.updInterp i f s).straps = s.straps := rfl
@[simp] theorem State.updInterp_time (i : Input) (f : Interp → Interp) (s : State) :
    (State.updInterp i f s).time = s.time := rfl
@[simp] theorem State.updInterp_secp (i : Input) (f : Interp → Interp) (s : State) :
    (State.updInterp i f s).secp = s.secp := rfl
@[simp] theorem State.updInterp_secpRise (i : Input) (f : Interp → Interp) (s : State) :
    (State.updInterp i f s).secpRise = s.secpRise := rfl
@[simp] theorem State.updInterp_secpFell (i : Input) (f : Interp → Interp) (s : State) :
    (State.updInterp i f s).secpFell = s.secpFell := rfl
@[simp] theorem State.updInterp_disc (i : Input) (f : Interp → Interp) (s : State) :
    (State.updInterp i f s).disc = s.disc := rfl
@[simp] theorem State.updInterp_calExpiry (i : Input) (f : Interp → Interp) (s : State) :
    (State.updInterp i f s).calExpiry = s.calExpiry := rfl
@[simp] theorem State.updInterp_lines (i : Input) (f : Interp → Interp) (s : State) :
    (State.updInterp i f s).lines = s.lines := rfl
@[simp] theorem State.updInterp_arrivals (i : Input) (f : Interp → Interp) (s : State) :
    (State.updInterp i f s).arrivals = s.arrivals := rfl
@[simp] theorem State.updInterp_channels (i : Input) (f : Interp → Interp) (s : State) :
    (State.updInterp i f s).channels = s.channels := rfl
@[simp] theorem State.updInterp_pairModes (i : Input) (f : Interp → Interp) (s : State) :
    (State.updInterp i f s).pairModes = s.pairModes := rfl
@[simp] theorem State.updInterp_unmapped (i : Input) (f : Interp → Interp) (s : State) :
    (State.updInterp i f s).unmapped = s.unmapped := rfl
@[simp] theorem State.updInterp_markers (i : Input) (f : Interp → Interp) (s : State) :
    (State.updInterp i f s).markers = s.markers := rfl
@[simp] theorem State.updInterp_markerSubs (i : Input) (f : Interp → Interp) (s : State) :
    (State.updInterp i f s).markerSubs = s.markerSubs := rfl
@[simp] theorem State.updInterp_markerPending (i : Input) (f : Interp → Interp) (s : State) :
    (State.updInterp i f s).markerPending = s.markerPending := rfl
@[simp] theorem State.updInterp_pool (i : Input) (f : Interp → Interp) (s : State) :
    (State.updInterp i f s).pool = s.pool := rfl
@[simp] theorem State.updInterp_ports (i : Input) (f : Interp → Interp) (s : State) :
    (State.updInterp i f s).ports = s.ports := rfl

/-! ### mapInterps -/

@[simp] theorem State.mapInterps_pending (f : Interp → Interp) (s : State) :
    (State.mapInterps f s).pending = s.pending := rfl
@[simp] theorem State.mapInterps_tick (f : Interp → Interp) (s : State) : (State.mapInterps f s).tick = s.tick := rfl
@[simp] theorem State.mapInterps_edgeSeq (f : Interp → Interp) (s : State) :
    (State.mapInterps f s).edgeSeq = s.edgeSeq := rfl
@[simp] theorem State.mapInterps_free (f : Interp → Interp) (s : State) : (State.mapInterps f s).free = s.free := rfl
@[simp] theorem State.mapInterps_rolled (f : Interp → Interp) (s : State) :
    (State.mapInterps f s).rolled = s.rolled := rfl
@[simp] theorem State.mapInterps_mon (f : Interp → Interp) (s : State) : (State.mapInterps f s).mon = s.mon := rfl
@[simp] theorem State.mapInterps_rstnLow (f : Interp → Interp) (s : State) :
    (State.mapInterps f s).rstnLow = s.rstnLow := rfl
@[simp] theorem State.mapInterps_rstnAsserted (f : Interp → Interp) (s : State) :
    (State.mapInterps f s).rstnAsserted = s.rstnAsserted := rfl
@[simp] theorem State.mapInterps_rstnReleaseAt (f : Interp → Interp) (s : State) :
    (State.mapInterps f s).rstnReleaseAt = s.rstnReleaseAt := rfl
@[simp] theorem State.mapInterps_straps (f : Interp → Interp) (s : State) :
    (State.mapInterps f s).straps = s.straps := rfl
@[simp] theorem State.mapInterps_time (f : Interp → Interp) (s : State) : (State.mapInterps f s).time = s.time := rfl
@[simp] theorem State.mapInterps_secp (f : Interp → Interp) (s : State) : (State.mapInterps f s).secp = s.secp := rfl
@[simp] theorem State.mapInterps_secpRise (f : Interp → Interp) (s : State) :
    (State.mapInterps f s).secpRise = s.secpRise := rfl
@[simp] theorem State.mapInterps_secpFell (f : Interp → Interp) (s : State) :
    (State.mapInterps f s).secpFell = s.secpFell := rfl
@[simp] theorem State.mapInterps_disc (f : Interp → Interp) (s : State) : (State.mapInterps f s).disc = s.disc := rfl
@[simp] theorem State.mapInterps_calExpiry (f : Interp → Interp) (s : State) :
    (State.mapInterps f s).calExpiry = s.calExpiry := rfl
@[simp] theorem State.mapInterps_lines (f : Interp → Interp) (s : State) : (State.mapInterps f s).lines = s.lines := rfl
@[simp] theorem State.mapInterps_arrivals (f : Interp → Interp) (s : State) :
    (State.mapInterps f s).arrivals = s.arrivals := rfl
@[simp] theorem State.mapInterps_channels (f : Interp → Interp) (s : State) :
    (State.mapInterps f s).channels = s.channels := rfl
@[simp] theorem State.mapInterps_pairModes (f : Interp → Interp) (s : State) :
    (State.mapInterps f s).pairModes = s.pairModes := rfl
@[simp] theorem State.mapInterps_unmapped (f : Interp → Interp) (s : State) :
    (State.mapInterps f s).unmapped = s.unmapped := rfl
@[simp] theorem State.mapInterps_markers (f : Interp → Interp) (s : State) :
    (State.mapInterps f s).markers = s.markers := rfl
@[simp] theorem State.mapInterps_markerSubs (f : Interp → Interp) (s : State) :
    (State.mapInterps f s).markerSubs = s.markerSubs := rfl
@[simp] theorem State.mapInterps_markerPending (f : Interp → Interp) (s : State) :
    (State.mapInterps f s).markerPending = s.markerPending := rfl
@[simp] theorem State.mapInterps_pool (f : Interp → Interp) (s : State) : (State.mapInterps f s).pool = s.pool := rfl
@[simp] theorem State.mapInterps_ports (f : Interp → Interp) (s : State) : (State.mapInterps f s).ports = s.ports := rfl

/-! ### updLine -/

@[simp] theorem State.updLine_lines (l : Fin 8) (f : Line → Line) (s : State) :
    (State.updLine l f s).lines = s.lines.set l (f s.lines[l]) := rfl
@[simp] theorem State.updLine_pending (l : Fin 8) (f : Line → Line) (s : State) :
    (State.updLine l f s).pending = s.pending := rfl
@[simp] theorem State.updLine_tick (l : Fin 8) (f : Line → Line) (s : State) :
    (State.updLine l f s).tick = s.tick := rfl
@[simp] theorem State.updLine_edgeSeq (l : Fin 8) (f : Line → Line) (s : State) :
    (State.updLine l f s).edgeSeq = s.edgeSeq := rfl
@[simp] theorem State.updLine_free (l : Fin 8) (f : Line → Line) (s : State) :
    (State.updLine l f s).free = s.free := rfl
@[simp] theorem State.updLine_rolled (l : Fin 8) (f : Line → Line) (s : State) :
    (State.updLine l f s).rolled = s.rolled := rfl
@[simp] theorem State.updLine_mon (l : Fin 8) (f : Line → Line) (s : State) : (State.updLine l f s).mon = s.mon := rfl
@[simp] theorem State.updLine_rstnLow (l : Fin 8) (f : Line → Line) (s : State) :
    (State.updLine l f s).rstnLow = s.rstnLow := rfl
@[simp] theorem State.updLine_rstnAsserted (l : Fin 8) (f : Line → Line) (s : State) :
    (State.updLine l f s).rstnAsserted = s.rstnAsserted := rfl
@[simp] theorem State.updLine_rstnReleaseAt (l : Fin 8) (f : Line → Line) (s : State) :
    (State.updLine l f s).rstnReleaseAt = s.rstnReleaseAt := rfl
@[simp] theorem State.updLine_straps (l : Fin 8) (f : Line → Line) (s : State) :
    (State.updLine l f s).straps = s.straps := rfl
@[simp] theorem State.updLine_time (l : Fin 8) (f : Line → Line) (s : State) :
    (State.updLine l f s).time = s.time := rfl
@[simp] theorem State.updLine_secp (l : Fin 8) (f : Line → Line) (s : State) :
    (State.updLine l f s).secp = s.secp := rfl
@[simp] theorem State.updLine_secpRise (l : Fin 8) (f : Line → Line) (s : State) :
    (State.updLine l f s).secpRise = s.secpRise := rfl
@[simp] theorem State.updLine_secpFell (l : Fin 8) (f : Line → Line) (s : State) :
    (State.updLine l f s).secpFell = s.secpFell := rfl
@[simp] theorem State.updLine_disc (l : Fin 8) (f : Line → Line) (s : State) :
    (State.updLine l f s).disc = s.disc := rfl
@[simp] theorem State.updLine_interps (l : Fin 8) (f : Line → Line) (s : State) :
    (State.updLine l f s).interps = s.interps := rfl
@[simp] theorem State.updLine_calExpiry (l : Fin 8) (f : Line → Line) (s : State) :
    (State.updLine l f s).calExpiry = s.calExpiry := rfl
@[simp] theorem State.updLine_arrivals (l : Fin 8) (f : Line → Line) (s : State) :
    (State.updLine l f s).arrivals = s.arrivals := rfl
@[simp] theorem State.updLine_channels (l : Fin 8) (f : Line → Line) (s : State) :
    (State.updLine l f s).channels = s.channels := rfl
@[simp] theorem State.updLine_pairModes (l : Fin 8) (f : Line → Line) (s : State) :
    (State.updLine l f s).pairModes = s.pairModes := rfl
@[simp] theorem State.updLine_unmapped (l : Fin 8) (f : Line → Line) (s : State) :
    (State.updLine l f s).unmapped = s.unmapped := rfl
@[simp] theorem State.updLine_markers (l : Fin 8) (f : Line → Line) (s : State) :
    (State.updLine l f s).markers = s.markers := rfl
@[simp] theorem State.updLine_markerSubs (l : Fin 8) (f : Line → Line) (s : State) :
    (State.updLine l f s).markerSubs = s.markerSubs := rfl
@[simp] theorem State.updLine_markerPending (l : Fin 8) (f : Line → Line) (s : State) :
    (State.updLine l f s).markerPending = s.markerPending := rfl
@[simp] theorem State.updLine_pool (l : Fin 8) (f : Line → Line) (s : State) :
    (State.updLine l f s).pool = s.pool := rfl
@[simp] theorem State.updLine_ports (l : Fin 8) (f : Line → Line) (s : State) :
    (State.updLine l f s).ports = s.ports := rfl

/-! ### mapLines -/

@[simp] theorem State.mapLines_pending (f : Line → Line) (s : State) : (State.mapLines f s).pending = s.pending := rfl
@[simp] theorem State.mapLines_tick (f : Line → Line) (s : State) : (State.mapLines f s).tick = s.tick := rfl
@[simp] theorem State.mapLines_edgeSeq (f : Line → Line) (s : State) : (State.mapLines f s).edgeSeq = s.edgeSeq := rfl
@[simp] theorem State.mapLines_free (f : Line → Line) (s : State) : (State.mapLines f s).free = s.free := rfl
@[simp] theorem State.mapLines_rolled (f : Line → Line) (s : State) : (State.mapLines f s).rolled = s.rolled := rfl
@[simp] theorem State.mapLines_mon (f : Line → Line) (s : State) : (State.mapLines f s).mon = s.mon := rfl
@[simp] theorem State.mapLines_rstnLow (f : Line → Line) (s : State) : (State.mapLines f s).rstnLow = s.rstnLow := rfl
@[simp] theorem State.mapLines_rstnAsserted (f : Line → Line) (s : State) :
    (State.mapLines f s).rstnAsserted = s.rstnAsserted := rfl
@[simp] theorem State.mapLines_rstnReleaseAt (f : Line → Line) (s : State) :
    (State.mapLines f s).rstnReleaseAt = s.rstnReleaseAt := rfl
@[simp] theorem State.mapLines_straps (f : Line → Line) (s : State) : (State.mapLines f s).straps = s.straps := rfl
@[simp] theorem State.mapLines_time (f : Line → Line) (s : State) : (State.mapLines f s).time = s.time := rfl
@[simp] theorem State.mapLines_secp (f : Line → Line) (s : State) : (State.mapLines f s).secp = s.secp := rfl
@[simp] theorem State.mapLines_secpRise (f : Line → Line) (s : State) :
    (State.mapLines f s).secpRise = s.secpRise := rfl
@[simp] theorem State.mapLines_secpFell (f : Line → Line) (s : State) :
    (State.mapLines f s).secpFell = s.secpFell := rfl
@[simp] theorem State.mapLines_disc (f : Line → Line) (s : State) : (State.mapLines f s).disc = s.disc := rfl
@[simp] theorem State.mapLines_interps (f : Line → Line) (s : State) : (State.mapLines f s).interps = s.interps := rfl
@[simp] theorem State.mapLines_calExpiry (f : Line → Line) (s : State) :
    (State.mapLines f s).calExpiry = s.calExpiry := rfl
@[simp] theorem State.mapLines_arrivals (f : Line → Line) (s : State) :
    (State.mapLines f s).arrivals = s.arrivals := rfl
@[simp] theorem State.mapLines_channels (f : Line → Line) (s : State) :
    (State.mapLines f s).channels = s.channels := rfl
@[simp] theorem State.mapLines_pairModes (f : Line → Line) (s : State) :
    (State.mapLines f s).pairModes = s.pairModes := rfl
@[simp] theorem State.mapLines_unmapped (f : Line → Line) (s : State) :
    (State.mapLines f s).unmapped = s.unmapped := rfl
@[simp] theorem State.mapLines_markers (f : Line → Line) (s : State) : (State.mapLines f s).markers = s.markers := rfl
@[simp] theorem State.mapLines_markerSubs (f : Line → Line) (s : State) :
    (State.mapLines f s).markerSubs = s.markerSubs := rfl
@[simp] theorem State.mapLines_markerPending (f : Line → Line) (s : State) :
    (State.mapLines f s).markerPending = s.markerPending := rfl
@[simp] theorem State.mapLines_pool (f : Line → Line) (s : State) : (State.mapLines f s).pool = s.pool := rfl
@[simp] theorem State.mapLines_ports (f : Line → Line) (s : State) : (State.mapLines f s).ports = s.ports := rfl

/-! ### updMarker -/

@[simp] theorem State.updMarker_markers (m : Fin 4) (f : Marker → Marker) (s : State) :
    (State.updMarker m f s).markers = s.markers.set m (f s.markers[m]) := rfl
@[simp] theorem State.updMarker_pending (m : Fin 4) (f : Marker → Marker) (s : State) :
    (State.updMarker m f s).pending = s.pending := rfl
@[simp] theorem State.updMarker_tick (m : Fin 4) (f : Marker → Marker) (s : State) :
    (State.updMarker m f s).tick = s.tick := rfl
@[simp] theorem State.updMarker_edgeSeq (m : Fin 4) (f : Marker → Marker) (s : State) :
    (State.updMarker m f s).edgeSeq = s.edgeSeq := rfl
@[simp] theorem State.updMarker_free (m : Fin 4) (f : Marker → Marker) (s : State) :
    (State.updMarker m f s).free = s.free := rfl
@[simp] theorem State.updMarker_rolled (m : Fin 4) (f : Marker → Marker) (s : State) :
    (State.updMarker m f s).rolled = s.rolled := rfl
@[simp] theorem State.updMarker_mon (m : Fin 4) (f : Marker → Marker) (s : State) :
    (State.updMarker m f s).mon = s.mon := rfl
@[simp] theorem State.updMarker_rstnLow (m : Fin 4) (f : Marker → Marker) (s : State) :
    (State.updMarker m f s).rstnLow = s.rstnLow := rfl
@[simp] theorem State.updMarker_rstnAsserted (m : Fin 4) (f : Marker → Marker) (s : State) :
    (State.updMarker m f s).rstnAsserted = s.rstnAsserted := rfl
@[simp] theorem State.updMarker_rstnReleaseAt (m : Fin 4) (f : Marker → Marker) (s : State) :
    (State.updMarker m f s).rstnReleaseAt = s.rstnReleaseAt := rfl
@[simp] theorem State.updMarker_straps (m : Fin 4) (f : Marker → Marker) (s : State) :
    (State.updMarker m f s).straps = s.straps := rfl
@[simp] theorem State.updMarker_time (m : Fin 4) (f : Marker → Marker) (s : State) :
    (State.updMarker m f s).time = s.time := rfl
@[simp] theorem State.updMarker_secp (m : Fin 4) (f : Marker → Marker) (s : State) :
    (State.updMarker m f s).secp = s.secp := rfl
@[simp] theorem State.updMarker_secpRise (m : Fin 4) (f : Marker → Marker) (s : State) :
    (State.updMarker m f s).secpRise = s.secpRise := rfl
@[simp] theorem State.updMarker_secpFell (m : Fin 4) (f : Marker → Marker) (s : State) :
    (State.updMarker m f s).secpFell = s.secpFell := rfl
@[simp] theorem State.updMarker_disc (m : Fin 4) (f : Marker → Marker) (s : State) :
    (State.updMarker m f s).disc = s.disc := rfl
@[simp] theorem State.updMarker_interps (m : Fin 4) (f : Marker → Marker) (s : State) :
    (State.updMarker m f s).interps = s.interps := rfl
@[simp] theorem State.updMarker_calExpiry (m : Fin 4) (f : Marker → Marker) (s : State) :
    (State.updMarker m f s).calExpiry = s.calExpiry := rfl
@[simp] theorem State.updMarker_lines (m : Fin 4) (f : Marker → Marker) (s : State) :
    (State.updMarker m f s).lines = s.lines := rfl
@[simp] theorem State.updMarker_arrivals (m : Fin 4) (f : Marker → Marker) (s : State) :
    (State.updMarker m f s).arrivals = s.arrivals := rfl
@[simp] theorem State.updMarker_channels (m : Fin 4) (f : Marker → Marker) (s : State) :
    (State.updMarker m f s).channels = s.channels := rfl
@[simp] theorem State.updMarker_pairModes (m : Fin 4) (f : Marker → Marker) (s : State) :
    (State.updMarker m f s).pairModes = s.pairModes := rfl
@[simp] theorem State.updMarker_unmapped (m : Fin 4) (f : Marker → Marker) (s : State) :
    (State.updMarker m f s).unmapped = s.unmapped := rfl
@[simp] theorem State.updMarker_markerSubs (m : Fin 4) (f : Marker → Marker) (s : State) :
    (State.updMarker m f s).markerSubs = s.markerSubs := rfl
@[simp] theorem State.updMarker_markerPending (m : Fin 4) (f : Marker → Marker) (s : State) :
    (State.updMarker m f s).markerPending = s.markerPending := rfl
@[simp] theorem State.updMarker_pool (m : Fin 4) (f : Marker → Marker) (s : State) :
    (State.updMarker m f s).pool = s.pool := rfl
@[simp] theorem State.updMarker_ports (m : Fin 4) (f : Marker → Marker) (s : State) :
    (State.updMarker m f s).ports = s.ports := rfl

/-! ### mapMarkers -/

@[simp] theorem State.mapMarkers_pending (f : Marker → Marker) (s : State) :
    (State.mapMarkers f s).pending = s.pending := rfl
@[simp] theorem State.mapMarkers_tick (f : Marker → Marker) (s : State) : (State.mapMarkers f s).tick = s.tick := rfl
@[simp] theorem State.mapMarkers_edgeSeq (f : Marker → Marker) (s : State) :
    (State.mapMarkers f s).edgeSeq = s.edgeSeq := rfl
@[simp] theorem State.mapMarkers_free (f : Marker → Marker) (s : State) : (State.mapMarkers f s).free = s.free := rfl
@[simp] theorem State.mapMarkers_rolled (f : Marker → Marker) (s : State) :
    (State.mapMarkers f s).rolled = s.rolled := rfl
@[simp] theorem State.mapMarkers_mon (f : Marker → Marker) (s : State) : (State.mapMarkers f s).mon = s.mon := rfl
@[simp] theorem State.mapMarkers_rstnLow (f : Marker → Marker) (s : State) :
    (State.mapMarkers f s).rstnLow = s.rstnLow := rfl
@[simp] theorem State.mapMarkers_rstnAsserted (f : Marker → Marker) (s : State) :
    (State.mapMarkers f s).rstnAsserted = s.rstnAsserted := rfl
@[simp] theorem State.mapMarkers_rstnReleaseAt (f : Marker → Marker) (s : State) :
    (State.mapMarkers f s).rstnReleaseAt = s.rstnReleaseAt := rfl
@[simp] theorem State.mapMarkers_straps (f : Marker → Marker) (s : State) :
    (State.mapMarkers f s).straps = s.straps := rfl
@[simp] theorem State.mapMarkers_time (f : Marker → Marker) (s : State) : (State.mapMarkers f s).time = s.time := rfl
@[simp] theorem State.mapMarkers_secp (f : Marker → Marker) (s : State) : (State.mapMarkers f s).secp = s.secp := rfl
@[simp] theorem State.mapMarkers_secpRise (f : Marker → Marker) (s : State) :
    (State.mapMarkers f s).secpRise = s.secpRise := rfl
@[simp] theorem State.mapMarkers_secpFell (f : Marker → Marker) (s : State) :
    (State.mapMarkers f s).secpFell = s.secpFell := rfl
@[simp] theorem State.mapMarkers_disc (f : Marker → Marker) (s : State) : (State.mapMarkers f s).disc = s.disc := rfl
@[simp] theorem State.mapMarkers_interps (f : Marker → Marker) (s : State) :
    (State.mapMarkers f s).interps = s.interps := rfl
@[simp] theorem State.mapMarkers_calExpiry (f : Marker → Marker) (s : State) :
    (State.mapMarkers f s).calExpiry = s.calExpiry := rfl
@[simp] theorem State.mapMarkers_lines (f : Marker → Marker) (s : State) : (State.mapMarkers f s).lines = s.lines := rfl
@[simp] theorem State.mapMarkers_arrivals (f : Marker → Marker) (s : State) :
    (State.mapMarkers f s).arrivals = s.arrivals := rfl
@[simp] theorem State.mapMarkers_channels (f : Marker → Marker) (s : State) :
    (State.mapMarkers f s).channels = s.channels := rfl
@[simp] theorem State.mapMarkers_pairModes (f : Marker → Marker) (s : State) :
    (State.mapMarkers f s).pairModes = s.pairModes := rfl
@[simp] theorem State.mapMarkers_unmapped (f : Marker → Marker) (s : State) :
    (State.mapMarkers f s).unmapped = s.unmapped := rfl
@[simp] theorem State.mapMarkers_markerSubs (f : Marker → Marker) (s : State) :
    (State.mapMarkers f s).markerSubs = s.markerSubs := rfl
@[simp] theorem State.mapMarkers_markerPending (f : Marker → Marker) (s : State) :
    (State.mapMarkers f s).markerPending = s.markerPending := rfl
@[simp] theorem State.mapMarkers_pool (f : Marker → Marker) (s : State) : (State.mapMarkers f s).pool = s.pool := rfl
@[simp] theorem State.mapMarkers_ports (f : Marker → Marker) (s : State) : (State.mapMarkers f s).ports = s.ports := rfl

/-! ### updDisc -/

@[simp] theorem State.updDisc_disc (f : Discipline → Discipline) (s : State) :
    (State.updDisc f s).disc = f s.disc := rfl
@[simp] theorem State.updDisc_pending (f : Discipline → Discipline) (s : State) :
    (State.updDisc f s).pending = s.pending := rfl
@[simp] theorem State.updDisc_tick (f : Discipline → Discipline) (s : State) : (State.updDisc f s).tick = s.tick := rfl
@[simp] theorem State.updDisc_edgeSeq (f : Discipline → Discipline) (s : State) :
    (State.updDisc f s).edgeSeq = s.edgeSeq := rfl
@[simp] theorem State.updDisc_free (f : Discipline → Discipline) (s : State) : (State.updDisc f s).free = s.free := rfl
@[simp] theorem State.updDisc_rolled (f : Discipline → Discipline) (s : State) :
    (State.updDisc f s).rolled = s.rolled := rfl
@[simp] theorem State.updDisc_mon (f : Discipline → Discipline) (s : State) : (State.updDisc f s).mon = s.mon := rfl
@[simp] theorem State.updDisc_rstnLow (f : Discipline → Discipline) (s : State) :
    (State.updDisc f s).rstnLow = s.rstnLow := rfl
@[simp] theorem State.updDisc_rstnAsserted (f : Discipline → Discipline) (s : State) :
    (State.updDisc f s).rstnAsserted = s.rstnAsserted := rfl
@[simp] theorem State.updDisc_rstnReleaseAt (f : Discipline → Discipline) (s : State) :
    (State.updDisc f s).rstnReleaseAt = s.rstnReleaseAt := rfl
@[simp] theorem State.updDisc_straps (f : Discipline → Discipline) (s : State) :
    (State.updDisc f s).straps = s.straps := rfl
@[simp] theorem State.updDisc_time (f : Discipline → Discipline) (s : State) : (State.updDisc f s).time = s.time := rfl
@[simp] theorem State.updDisc_secp (f : Discipline → Discipline) (s : State) : (State.updDisc f s).secp = s.secp := rfl
@[simp] theorem State.updDisc_secpRise (f : Discipline → Discipline) (s : State) :
    (State.updDisc f s).secpRise = s.secpRise := rfl
@[simp] theorem State.updDisc_secpFell (f : Discipline → Discipline) (s : State) :
    (State.updDisc f s).secpFell = s.secpFell := rfl
@[simp] theorem State.updDisc_interps (f : Discipline → Discipline) (s : State) :
    (State.updDisc f s).interps = s.interps := rfl
@[simp] theorem State.updDisc_calExpiry (f : Discipline → Discipline) (s : State) :
    (State.updDisc f s).calExpiry = s.calExpiry := rfl
@[simp] theorem State.updDisc_lines (f : Discipline → Discipline) (s : State) :
    (State.updDisc f s).lines = s.lines := rfl
@[simp] theorem State.updDisc_arrivals (f : Discipline → Discipline) (s : State) :
    (State.updDisc f s).arrivals = s.arrivals := rfl
@[simp] theorem State.updDisc_channels (f : Discipline → Discipline) (s : State) :
    (State.updDisc f s).channels = s.channels := rfl
@[simp] theorem State.updDisc_pairModes (f : Discipline → Discipline) (s : State) :
    (State.updDisc f s).pairModes = s.pairModes := rfl
@[simp] theorem State.updDisc_unmapped (f : Discipline → Discipline) (s : State) :
    (State.updDisc f s).unmapped = s.unmapped := rfl
@[simp] theorem State.updDisc_markers (f : Discipline → Discipline) (s : State) :
    (State.updDisc f s).markers = s.markers := rfl
@[simp] theorem State.updDisc_markerSubs (f : Discipline → Discipline) (s : State) :
    (State.updDisc f s).markerSubs = s.markerSubs := rfl
@[simp] theorem State.updDisc_markerPending (f : Discipline → Discipline) (s : State) :
    (State.updDisc f s).markerPending = s.markerPending := rfl
@[simp] theorem State.updDisc_pool (f : Discipline → Discipline) (s : State) : (State.updDisc f s).pool = s.pool := rfl
@[simp] theorem State.updDisc_ports (f : Discipline → Discipline) (s : State) :
    (State.updDisc f s).ports = s.ports := rfl

/-! ### updMon -/

@[simp] theorem State.updMon_mon (f : Monitor → Monitor) (s : State) :
    (State.updMon f s).mon = f s.mon := rfl
@[simp] theorem State.updMon_pending (f : Monitor → Monitor) (s : State) : (State.updMon f s).pending = s.pending := rfl
@[simp] theorem State.updMon_tick (f : Monitor → Monitor) (s : State) : (State.updMon f s).tick = s.tick := rfl
@[simp] theorem State.updMon_edgeSeq (f : Monitor → Monitor) (s : State) : (State.updMon f s).edgeSeq = s.edgeSeq := rfl
@[simp] theorem State.updMon_free (f : Monitor → Monitor) (s : State) : (State.updMon f s).free = s.free := rfl
@[simp] theorem State.updMon_rolled (f : Monitor → Monitor) (s : State) : (State.updMon f s).rolled = s.rolled := rfl
@[simp] theorem State.updMon_rstnLow (f : Monitor → Monitor) (s : State) : (State.updMon f s).rstnLow = s.rstnLow := rfl
@[simp] theorem State.updMon_rstnAsserted (f : Monitor → Monitor) (s : State) :
    (State.updMon f s).rstnAsserted = s.rstnAsserted := rfl
@[simp] theorem State.updMon_rstnReleaseAt (f : Monitor → Monitor) (s : State) :
    (State.updMon f s).rstnReleaseAt = s.rstnReleaseAt := rfl
@[simp] theorem State.updMon_straps (f : Monitor → Monitor) (s : State) : (State.updMon f s).straps = s.straps := rfl
@[simp] theorem State.updMon_time (f : Monitor → Monitor) (s : State) : (State.updMon f s).time = s.time := rfl
@[simp] theorem State.updMon_secp (f : Monitor → Monitor) (s : State) : (State.updMon f s).secp = s.secp := rfl
@[simp] theorem State.updMon_secpRise (f : Monitor → Monitor) (s : State) :
    (State.updMon f s).secpRise = s.secpRise := rfl
@[simp] theorem State.updMon_secpFell (f : Monitor → Monitor) (s : State) :
    (State.updMon f s).secpFell = s.secpFell := rfl
@[simp] theorem State.updMon_disc (f : Monitor → Monitor) (s : State) : (State.updMon f s).disc = s.disc := rfl
@[simp] theorem State.updMon_interps (f : Monitor → Monitor) (s : State) : (State.updMon f s).interps = s.interps := rfl
@[simp] theorem State.updMon_calExpiry (f : Monitor → Monitor) (s : State) :
    (State.updMon f s).calExpiry = s.calExpiry := rfl
@[simp] theorem State.updMon_lines (f : Monitor → Monitor) (s : State) : (State.updMon f s).lines = s.lines := rfl
@[simp] theorem State.updMon_arrivals (f : Monitor → Monitor) (s : State) :
    (State.updMon f s).arrivals = s.arrivals := rfl
@[simp] theorem State.updMon_channels (f : Monitor → Monitor) (s : State) :
    (State.updMon f s).channels = s.channels := rfl
@[simp] theorem State.updMon_pairModes (f : Monitor → Monitor) (s : State) :
    (State.updMon f s).pairModes = s.pairModes := rfl
@[simp] theorem State.updMon_unmapped (f : Monitor → Monitor) (s : State) :
    (State.updMon f s).unmapped = s.unmapped := rfl
@[simp] theorem State.updMon_markers (f : Monitor → Monitor) (s : State) : (State.updMon f s).markers = s.markers := rfl
@[simp] theorem State.updMon_markerSubs (f : Monitor → Monitor) (s : State) :
    (State.updMon f s).markerSubs = s.markerSubs := rfl
@[simp] theorem State.updMon_markerPending (f : Monitor → Monitor) (s : State) :
    (State.updMon f s).markerPending = s.markerPending := rfl
@[simp] theorem State.updMon_pool (f : Monitor → Monitor) (s : State) : (State.updMon f s).pool = s.pool := rfl
@[simp] theorem State.updMon_ports (f : Monitor → Monitor) (s : State) : (State.updMon f s).ports = s.ports := rfl

/-! ### updPort -/

@[simp] theorem State.updPort_ports (p : Fin 3) (f : Port → Port) (s : State) :
    (State.updPort p f s).ports = s.ports.set p ((f s.ports[p]).settle s.tick) := rfl
@[simp] theorem State.updPort_pending (p : Fin 3) (f : Port → Port) (s : State) :
    (State.updPort p f s).pending = s.pending := rfl
@[simp] theorem State.updPort_tick (p : Fin 3) (f : Port → Port) (s : State) :
    (State.updPort p f s).tick = s.tick := rfl
@[simp] theorem State.updPort_edgeSeq (p : Fin 3) (f : Port → Port) (s : State) :
    (State.updPort p f s).edgeSeq = s.edgeSeq := rfl
@[simp] theorem State.updPort_free (p : Fin 3) (f : Port → Port) (s : State) :
    (State.updPort p f s).free = s.free := rfl
@[simp] theorem State.updPort_rolled (p : Fin 3) (f : Port → Port) (s : State) :
    (State.updPort p f s).rolled = s.rolled := rfl
@[simp] theorem State.updPort_mon (p : Fin 3) (f : Port → Port) (s : State) : (State.updPort p f s).mon = s.mon := rfl
@[simp] theorem State.updPort_rstnLow (p : Fin 3) (f : Port → Port) (s : State) :
    (State.updPort p f s).rstnLow = s.rstnLow := rfl
@[simp] theorem State.updPort_rstnAsserted (p : Fin 3) (f : Port → Port) (s : State) :
    (State.updPort p f s).rstnAsserted = s.rstnAsserted := rfl
@[simp] theorem State.updPort_rstnReleaseAt (p : Fin 3) (f : Port → Port) (s : State) :
    (State.updPort p f s).rstnReleaseAt = s.rstnReleaseAt := rfl
@[simp] theorem State.updPort_straps (p : Fin 3) (f : Port → Port) (s : State) :
    (State.updPort p f s).straps = s.straps := rfl
@[simp] theorem State.updPort_time (p : Fin 3) (f : Port → Port) (s : State) :
    (State.updPort p f s).time = s.time := rfl
@[simp] theorem State.updPort_secp (p : Fin 3) (f : Port → Port) (s : State) :
    (State.updPort p f s).secp = s.secp := rfl
@[simp] theorem State.updPort_secpRise (p : Fin 3) (f : Port → Port) (s : State) :
    (State.updPort p f s).secpRise = s.secpRise := rfl
@[simp] theorem State.updPort_secpFell (p : Fin 3) (f : Port → Port) (s : State) :
    (State.updPort p f s).secpFell = s.secpFell := rfl
@[simp] theorem State.updPort_disc (p : Fin 3) (f : Port → Port) (s : State) :
    (State.updPort p f s).disc = s.disc := rfl
@[simp] theorem State.updPort_interps (p : Fin 3) (f : Port → Port) (s : State) :
    (State.updPort p f s).interps = s.interps := rfl
@[simp] theorem State.updPort_calExpiry (p : Fin 3) (f : Port → Port) (s : State) :
    (State.updPort p f s).calExpiry = s.calExpiry := rfl
@[simp] theorem State.updPort_lines (p : Fin 3) (f : Port → Port) (s : State) :
    (State.updPort p f s).lines = s.lines := rfl
@[simp] theorem State.updPort_arrivals (p : Fin 3) (f : Port → Port) (s : State) :
    (State.updPort p f s).arrivals = s.arrivals := rfl
@[simp] theorem State.updPort_channels (p : Fin 3) (f : Port → Port) (s : State) :
    (State.updPort p f s).channels = s.channels := rfl
@[simp] theorem State.updPort_pairModes (p : Fin 3) (f : Port → Port) (s : State) :
    (State.updPort p f s).pairModes = s.pairModes := rfl
@[simp] theorem State.updPort_unmapped (p : Fin 3) (f : Port → Port) (s : State) :
    (State.updPort p f s).unmapped = s.unmapped := rfl
@[simp] theorem State.updPort_markers (p : Fin 3) (f : Port → Port) (s : State) :
    (State.updPort p f s).markers = s.markers := rfl
@[simp] theorem State.updPort_markerSubs (p : Fin 3) (f : Port → Port) (s : State) :
    (State.updPort p f s).markerSubs = s.markerSubs := rfl
@[simp] theorem State.updPort_markerPending (p : Fin 3) (f : Port → Port) (s : State) :
    (State.updPort p f s).markerPending = s.markerPending := rfl
@[simp] theorem State.updPort_pool (p : Fin 3) (f : Port → Port) (s : State) :
    (State.updPort p f s).pool = s.pool := rfl

/-! ### mapPorts -/

@[simp] theorem State.mapPorts_pending (f : Fin 3 → Port → Port) (s : State) :
    (State.mapPorts f s).pending = s.pending := rfl
@[simp] theorem State.mapPorts_tick (f : Fin 3 → Port → Port) (s : State) : (State.mapPorts f s).tick = s.tick := rfl
@[simp] theorem State.mapPorts_edgeSeq (f : Fin 3 → Port → Port) (s : State) :
    (State.mapPorts f s).edgeSeq = s.edgeSeq := rfl
@[simp] theorem State.mapPorts_free (f : Fin 3 → Port → Port) (s : State) : (State.mapPorts f s).free = s.free := rfl
@[simp] theorem State.mapPorts_rolled (f : Fin 3 → Port → Port) (s : State) :
    (State.mapPorts f s).rolled = s.rolled := rfl
@[simp] theorem State.mapPorts_mon (f : Fin 3 → Port → Port) (s : State) : (State.mapPorts f s).mon = s.mon := rfl
@[simp] theorem State.mapPorts_rstnLow (f : Fin 3 → Port → Port) (s : State) :
    (State.mapPorts f s).rstnLow = s.rstnLow := rfl
@[simp] theorem State.mapPorts_rstnAsserted (f : Fin 3 → Port → Port) (s : State) :
    (State.mapPorts f s).rstnAsserted = s.rstnAsserted := rfl
@[simp] theorem State.mapPorts_rstnReleaseAt (f : Fin 3 → Port → Port) (s : State) :
    (State.mapPorts f s).rstnReleaseAt = s.rstnReleaseAt := rfl
@[simp] theorem State.mapPorts_straps (f : Fin 3 → Port → Port) (s : State) :
    (State.mapPorts f s).straps = s.straps := rfl
@[simp] theorem State.mapPorts_time (f : Fin 3 → Port → Port) (s : State) : (State.mapPorts f s).time = s.time := rfl
@[simp] theorem State.mapPorts_secp (f : Fin 3 → Port → Port) (s : State) : (State.mapPorts f s).secp = s.secp := rfl
@[simp] theorem State.mapPorts_secpRise (f : Fin 3 → Port → Port) (s : State) :
    (State.mapPorts f s).secpRise = s.secpRise := rfl
@[simp] theorem State.mapPorts_secpFell (f : Fin 3 → Port → Port) (s : State) :
    (State.mapPorts f s).secpFell = s.secpFell := rfl
@[simp] theorem State.mapPorts_disc (f : Fin 3 → Port → Port) (s : State) : (State.mapPorts f s).disc = s.disc := rfl
@[simp] theorem State.mapPorts_interps (f : Fin 3 → Port → Port) (s : State) :
    (State.mapPorts f s).interps = s.interps := rfl
@[simp] theorem State.mapPorts_calExpiry (f : Fin 3 → Port → Port) (s : State) :
    (State.mapPorts f s).calExpiry = s.calExpiry := rfl
@[simp] theorem State.mapPorts_lines (f : Fin 3 → Port → Port) (s : State) : (State.mapPorts f s).lines = s.lines := rfl
@[simp] theorem State.mapPorts_arrivals (f : Fin 3 → Port → Port) (s : State) :
    (State.mapPorts f s).arrivals = s.arrivals := rfl
@[simp] theorem State.mapPorts_channels (f : Fin 3 → Port → Port) (s : State) :
    (State.mapPorts f s).channels = s.channels := rfl
@[simp] theorem State.mapPorts_pairModes (f : Fin 3 → Port → Port) (s : State) :
    (State.mapPorts f s).pairModes = s.pairModes := rfl
@[simp] theorem State.mapPorts_unmapped (f : Fin 3 → Port → Port) (s : State) :
    (State.mapPorts f s).unmapped = s.unmapped := rfl
@[simp] theorem State.mapPorts_markers (f : Fin 3 → Port → Port) (s : State) :
    (State.mapPorts f s).markers = s.markers := rfl
@[simp] theorem State.mapPorts_markerSubs (f : Fin 3 → Port → Port) (s : State) :
    (State.mapPorts f s).markerSubs = s.markerSubs := rfl
@[simp] theorem State.mapPorts_markerPending (f : Fin 3 → Port → Port) (s : State) :
    (State.mapPorts f s).markerPending = s.markerPending := rfl
@[simp] theorem State.mapPorts_pool (f : Fin 3 → Port → Port) (s : State) : (State.mapPorts f s).pool = s.pool := rfl

/-! ### releaseIds -/

@[simp] theorem State.releaseIds_pending (ids : List Nat) (s : State) :
    (State.releaseIds ids s).pending = s.pending := rfl
@[simp] theorem State.releaseIds_tick (ids : List Nat) (s : State) : (State.releaseIds ids s).tick = s.tick := rfl
@[simp] theorem State.releaseIds_edgeSeq (ids : List Nat) (s : State) :
    (State.releaseIds ids s).edgeSeq = s.edgeSeq := rfl
@[simp] theorem State.releaseIds_free (ids : List Nat) (s : State) : (State.releaseIds ids s).free = s.free := rfl
@[simp] theorem State.releaseIds_rolled (ids : List Nat) (s : State) : (State.releaseIds ids s).rolled = s.rolled := rfl
@[simp] theorem State.releaseIds_mon (ids : List Nat) (s : State) : (State.releaseIds ids s).mon = s.mon := rfl
@[simp] theorem State.releaseIds_rstnLow (ids : List Nat) (s : State) :
    (State.releaseIds ids s).rstnLow = s.rstnLow := rfl
@[simp] theorem State.releaseIds_rstnAsserted (ids : List Nat) (s : State) :
    (State.releaseIds ids s).rstnAsserted = s.rstnAsserted := rfl
@[simp] theorem State.releaseIds_rstnReleaseAt (ids : List Nat) (s : State) :
    (State.releaseIds ids s).rstnReleaseAt = s.rstnReleaseAt := rfl
@[simp] theorem State.releaseIds_straps (ids : List Nat) (s : State) : (State.releaseIds ids s).straps = s.straps := rfl
@[simp] theorem State.releaseIds_time (ids : List Nat) (s : State) : (State.releaseIds ids s).time = s.time := rfl
@[simp] theorem State.releaseIds_secp (ids : List Nat) (s : State) : (State.releaseIds ids s).secp = s.secp := rfl
@[simp] theorem State.releaseIds_secpRise (ids : List Nat) (s : State) :
    (State.releaseIds ids s).secpRise = s.secpRise := rfl
@[simp] theorem State.releaseIds_secpFell (ids : List Nat) (s : State) :
    (State.releaseIds ids s).secpFell = s.secpFell := rfl
@[simp] theorem State.releaseIds_disc (ids : List Nat) (s : State) : (State.releaseIds ids s).disc = s.disc := rfl
@[simp] theorem State.releaseIds_interps (ids : List Nat) (s : State) :
    (State.releaseIds ids s).interps = s.interps := rfl
@[simp] theorem State.releaseIds_calExpiry (ids : List Nat) (s : State) :
    (State.releaseIds ids s).calExpiry = s.calExpiry := rfl
@[simp] theorem State.releaseIds_lines (ids : List Nat) (s : State) : (State.releaseIds ids s).lines = s.lines := rfl
@[simp] theorem State.releaseIds_arrivals (ids : List Nat) (s : State) :
    (State.releaseIds ids s).arrivals = s.arrivals := rfl
@[simp] theorem State.releaseIds_channels (ids : List Nat) (s : State) :
    (State.releaseIds ids s).channels = s.channels := rfl
@[simp] theorem State.releaseIds_pairModes (ids : List Nat) (s : State) :
    (State.releaseIds ids s).pairModes = s.pairModes := rfl
@[simp] theorem State.releaseIds_unmapped (ids : List Nat) (s : State) :
    (State.releaseIds ids s).unmapped = s.unmapped := rfl
@[simp] theorem State.releaseIds_markers (ids : List Nat) (s : State) :
    (State.releaseIds ids s).markers = s.markers := rfl
@[simp] theorem State.releaseIds_markerSubs (ids : List Nat) (s : State) :
    (State.releaseIds ids s).markerSubs = s.markerSubs := rfl
@[simp] theorem State.releaseIds_markerPending (ids : List Nat) (s : State) :
    (State.releaseIds ids s).markerPending = s.markerPending := rfl
@[simp] theorem State.releaseIds_ports (ids : List Nat) (s : State) : (State.releaseIds ids s).ports = s.ports := rfl

/-! ### handFromEngine -/

@[simp] theorem State.handFromEngine_pending (os : List Offer) (s : State) :
    (State.handFromEngine os s).pending = s.pending := rfl
@[simp] theorem State.handFromEngine_tick (os : List Offer) (s : State) :
    (State.handFromEngine os s).tick = s.tick := rfl
@[simp] theorem State.handFromEngine_edgeSeq (os : List Offer) (s : State) :
    (State.handFromEngine os s).edgeSeq = s.edgeSeq := rfl
@[simp] theorem State.handFromEngine_free (os : List Offer) (s : State) :
    (State.handFromEngine os s).free = s.free := rfl
@[simp] theorem State.handFromEngine_rolled (os : List Offer) (s : State) :
    (State.handFromEngine os s).rolled = s.rolled := rfl
@[simp] theorem State.handFromEngine_mon (os : List Offer) (s : State) : (State.handFromEngine os s).mon = s.mon := rfl
@[simp] theorem State.handFromEngine_rstnLow (os : List Offer) (s : State) :
    (State.handFromEngine os s).rstnLow = s.rstnLow := rfl
@[simp] theorem State.handFromEngine_rstnAsserted (os : List Offer) (s : State) :
    (State.handFromEngine os s).rstnAsserted = s.rstnAsserted := rfl
@[simp] theorem State.handFromEngine_rstnReleaseAt (os : List Offer) (s : State) :
    (State.handFromEngine os s).rstnReleaseAt = s.rstnReleaseAt := rfl
@[simp] theorem State.handFromEngine_straps (os : List Offer) (s : State) :
    (State.handFromEngine os s).straps = s.straps := rfl
@[simp] theorem State.handFromEngine_time (os : List Offer) (s : State) :
    (State.handFromEngine os s).time = s.time := rfl
@[simp] theorem State.handFromEngine_secp (os : List Offer) (s : State) :
    (State.handFromEngine os s).secp = s.secp := rfl
@[simp] theorem State.handFromEngine_secpRise (os : List Offer) (s : State) :
    (State.handFromEngine os s).secpRise = s.secpRise := rfl
@[simp] theorem State.handFromEngine_secpFell (os : List Offer) (s : State) :
    (State.handFromEngine os s).secpFell = s.secpFell := rfl
@[simp] theorem State.handFromEngine_disc (os : List Offer) (s : State) :
    (State.handFromEngine os s).disc = s.disc := rfl
@[simp] theorem State.handFromEngine_interps (os : List Offer) (s : State) :
    (State.handFromEngine os s).interps = s.interps := rfl
@[simp] theorem State.handFromEngine_calExpiry (os : List Offer) (s : State) :
    (State.handFromEngine os s).calExpiry = s.calExpiry := rfl
@[simp] theorem State.handFromEngine_lines (os : List Offer) (s : State) :
    (State.handFromEngine os s).lines = s.lines := rfl
@[simp] theorem State.handFromEngine_arrivals (os : List Offer) (s : State) :
    (State.handFromEngine os s).arrivals = s.arrivals := rfl
@[simp] theorem State.handFromEngine_channels (os : List Offer) (s : State) :
    (State.handFromEngine os s).channels = s.channels := rfl
@[simp] theorem State.handFromEngine_pairModes (os : List Offer) (s : State) :
    (State.handFromEngine os s).pairModes = s.pairModes := rfl
@[simp] theorem State.handFromEngine_unmapped (os : List Offer) (s : State) :
    (State.handFromEngine os s).unmapped = s.unmapped := rfl
@[simp] theorem State.handFromEngine_markers (os : List Offer) (s : State) :
    (State.handFromEngine os s).markers = s.markers := rfl
@[simp] theorem State.handFromEngine_markerSubs (os : List Offer) (s : State) :
    (State.handFromEngine os s).markerSubs = s.markerSubs := rfl
@[simp] theorem State.handFromEngine_markerPending (os : List Offer) (s : State) :
    (State.handFromEngine os s).markerPending = s.markerPending := rfl
@[simp] theorem State.handFromEngine_ports (os : List Offer) (s : State) :
    (State.handFromEngine os s).ports = s.ports := rfl

/-! ### handFromMarkers -/

@[simp] theorem State.handFromMarkers_pending (o : Offer) (s : State) :
    (State.handFromMarkers o s).pending = s.pending := rfl
@[simp] theorem State.handFromMarkers_tick (o : Offer) (s : State) : (State.handFromMarkers o s).tick = s.tick := rfl
@[simp] theorem State.handFromMarkers_edgeSeq (o : Offer) (s : State) :
    (State.handFromMarkers o s).edgeSeq = s.edgeSeq := rfl
@[simp] theorem State.handFromMarkers_free (o : Offer) (s : State) : (State.handFromMarkers o s).free = s.free := rfl
@[simp] theorem State.handFromMarkers_rolled (o : Offer) (s : State) :
    (State.handFromMarkers o s).rolled = s.rolled := rfl
@[simp] theorem State.handFromMarkers_mon (o : Offer) (s : State) : (State.handFromMarkers o s).mon = s.mon := rfl
@[simp] theorem State.handFromMarkers_rstnLow (o : Offer) (s : State) :
    (State.handFromMarkers o s).rstnLow = s.rstnLow := rfl
@[simp] theorem State.handFromMarkers_rstnAsserted (o : Offer) (s : State) :
    (State.handFromMarkers o s).rstnAsserted = s.rstnAsserted := rfl
@[simp] theorem State.handFromMarkers_rstnReleaseAt (o : Offer) (s : State) :
    (State.handFromMarkers o s).rstnReleaseAt = s.rstnReleaseAt := rfl
@[simp] theorem State.handFromMarkers_straps (o : Offer) (s : State) :
    (State.handFromMarkers o s).straps = s.straps := rfl
@[simp] theorem State.handFromMarkers_time (o : Offer) (s : State) : (State.handFromMarkers o s).time = s.time := rfl
@[simp] theorem State.handFromMarkers_secp (o : Offer) (s : State) : (State.handFromMarkers o s).secp = s.secp := rfl
@[simp] theorem State.handFromMarkers_secpRise (o : Offer) (s : State) :
    (State.handFromMarkers o s).secpRise = s.secpRise := rfl
@[simp] theorem State.handFromMarkers_secpFell (o : Offer) (s : State) :
    (State.handFromMarkers o s).secpFell = s.secpFell := rfl
@[simp] theorem State.handFromMarkers_disc (o : Offer) (s : State) : (State.handFromMarkers o s).disc = s.disc := rfl
@[simp] theorem State.handFromMarkers_interps (o : Offer) (s : State) :
    (State.handFromMarkers o s).interps = s.interps := rfl
@[simp] theorem State.handFromMarkers_calExpiry (o : Offer) (s : State) :
    (State.handFromMarkers o s).calExpiry = s.calExpiry := rfl
@[simp] theorem State.handFromMarkers_lines (o : Offer) (s : State) : (State.handFromMarkers o s).lines = s.lines := rfl
@[simp] theorem State.handFromMarkers_arrivals (o : Offer) (s : State) :
    (State.handFromMarkers o s).arrivals = s.arrivals := rfl
@[simp] theorem State.handFromMarkers_channels (o : Offer) (s : State) :
    (State.handFromMarkers o s).channels = s.channels := rfl
@[simp] theorem State.handFromMarkers_pairModes (o : Offer) (s : State) :
    (State.handFromMarkers o s).pairModes = s.pairModes := rfl
@[simp] theorem State.handFromMarkers_unmapped (o : Offer) (s : State) :
    (State.handFromMarkers o s).unmapped = s.unmapped := rfl
@[simp] theorem State.handFromMarkers_markers (o : Offer) (s : State) :
    (State.handFromMarkers o s).markers = s.markers := rfl
@[simp] theorem State.handFromMarkers_markerSubs (o : Offer) (s : State) :
    (State.handFromMarkers o s).markerSubs = s.markerSubs := rfl
@[simp] theorem State.handFromMarkers_markerPending (o : Offer) (s : State) :
    (State.handFromMarkers o s).markerPending = s.markerPending := rfl
@[simp] theorem State.handFromMarkers_ports (o : Offer) (s : State) : (State.handFromMarkers o s).ports = s.ports := rfl

/-! ### notifyAll -/

@[simp] theorem State.notifyAll_pending (b : NoticeBody) (s : State) : (State.notifyAll b s).pending = s.pending := rfl
@[simp] theorem State.notifyAll_tick (b : NoticeBody) (s : State) : (State.notifyAll b s).tick = s.tick := rfl
@[simp] theorem State.notifyAll_edgeSeq (b : NoticeBody) (s : State) : (State.notifyAll b s).edgeSeq = s.edgeSeq := rfl
@[simp] theorem State.notifyAll_free (b : NoticeBody) (s : State) : (State.notifyAll b s).free = s.free := rfl
@[simp] theorem State.notifyAll_rolled (b : NoticeBody) (s : State) : (State.notifyAll b s).rolled = s.rolled := rfl
@[simp] theorem State.notifyAll_mon (b : NoticeBody) (s : State) : (State.notifyAll b s).mon = s.mon := rfl
@[simp] theorem State.notifyAll_rstnLow (b : NoticeBody) (s : State) : (State.notifyAll b s).rstnLow = s.rstnLow := rfl
@[simp] theorem State.notifyAll_rstnAsserted (b : NoticeBody) (s : State) :
    (State.notifyAll b s).rstnAsserted = s.rstnAsserted := rfl
@[simp] theorem State.notifyAll_rstnReleaseAt (b : NoticeBody) (s : State) :
    (State.notifyAll b s).rstnReleaseAt = s.rstnReleaseAt := rfl
@[simp] theorem State.notifyAll_straps (b : NoticeBody) (s : State) : (State.notifyAll b s).straps = s.straps := rfl
@[simp] theorem State.notifyAll_time (b : NoticeBody) (s : State) : (State.notifyAll b s).time = s.time := rfl
@[simp] theorem State.notifyAll_secp (b : NoticeBody) (s : State) : (State.notifyAll b s).secp = s.secp := rfl
@[simp] theorem State.notifyAll_secpRise (b : NoticeBody) (s : State) :
    (State.notifyAll b s).secpRise = s.secpRise := rfl
@[simp] theorem State.notifyAll_secpFell (b : NoticeBody) (s : State) :
    (State.notifyAll b s).secpFell = s.secpFell := rfl
@[simp] theorem State.notifyAll_disc (b : NoticeBody) (s : State) : (State.notifyAll b s).disc = s.disc := rfl
@[simp] theorem State.notifyAll_interps (b : NoticeBody) (s : State) : (State.notifyAll b s).interps = s.interps := rfl
@[simp] theorem State.notifyAll_calExpiry (b : NoticeBody) (s : State) :
    (State.notifyAll b s).calExpiry = s.calExpiry := rfl
@[simp] theorem State.notifyAll_lines (b : NoticeBody) (s : State) : (State.notifyAll b s).lines = s.lines := rfl
@[simp] theorem State.notifyAll_arrivals (b : NoticeBody) (s : State) :
    (State.notifyAll b s).arrivals = s.arrivals := rfl
@[simp] theorem State.notifyAll_channels (b : NoticeBody) (s : State) :
    (State.notifyAll b s).channels = s.channels := rfl
@[simp] theorem State.notifyAll_pairModes (b : NoticeBody) (s : State) :
    (State.notifyAll b s).pairModes = s.pairModes := rfl
@[simp] theorem State.notifyAll_unmapped (b : NoticeBody) (s : State) :
    (State.notifyAll b s).unmapped = s.unmapped := rfl
@[simp] theorem State.notifyAll_markers (b : NoticeBody) (s : State) : (State.notifyAll b s).markers = s.markers := rfl
@[simp] theorem State.notifyAll_markerSubs (b : NoticeBody) (s : State) :
    (State.notifyAll b s).markerSubs = s.markerSubs := rfl
@[simp] theorem State.notifyAll_markerPending (b : NoticeBody) (s : State) :
    (State.notifyAll b s).markerPending = s.markerPending := rfl
@[simp] theorem State.notifyAll_pool (b : NoticeBody) (s : State) : (State.notifyAll b s).pool = s.pool := rfl

/-! ### emptyWindows -/

@[simp] theorem State.emptyWindows_pending (s : State) : (State.emptyWindows s).pending = s.pending := rfl
@[simp] theorem State.emptyWindows_tick (s : State) : (State.emptyWindows s).tick = s.tick := rfl
@[simp] theorem State.emptyWindows_edgeSeq (s : State) : (State.emptyWindows s).edgeSeq = s.edgeSeq := rfl
@[simp] theorem State.emptyWindows_free (s : State) : (State.emptyWindows s).free = s.free := rfl
@[simp] theorem State.emptyWindows_rolled (s : State) : (State.emptyWindows s).rolled = s.rolled := rfl
@[simp] theorem State.emptyWindows_mon (s : State) : (State.emptyWindows s).mon = s.mon := rfl
@[simp] theorem State.emptyWindows_rstnLow (s : State) : (State.emptyWindows s).rstnLow = s.rstnLow := rfl
@[simp] theorem State.emptyWindows_rstnAsserted (s : State) :
    (State.emptyWindows s).rstnAsserted = s.rstnAsserted := rfl
@[simp] theorem State.emptyWindows_rstnReleaseAt (s : State) :
    (State.emptyWindows s).rstnReleaseAt = s.rstnReleaseAt := rfl
@[simp] theorem State.emptyWindows_straps (s : State) : (State.emptyWindows s).straps = s.straps := rfl
@[simp] theorem State.emptyWindows_time (s : State) : (State.emptyWindows s).time = s.time := rfl
@[simp] theorem State.emptyWindows_secp (s : State) : (State.emptyWindows s).secp = s.secp := rfl
@[simp] theorem State.emptyWindows_secpRise (s : State) : (State.emptyWindows s).secpRise = s.secpRise := rfl
@[simp] theorem State.emptyWindows_secpFell (s : State) : (State.emptyWindows s).secpFell = s.secpFell := rfl
@[simp] theorem State.emptyWindows_disc (s : State) : (State.emptyWindows s).disc = s.disc := rfl
@[simp] theorem State.emptyWindows_interps (s : State) : (State.emptyWindows s).interps = s.interps := rfl
@[simp] theorem State.emptyWindows_calExpiry (s : State) : (State.emptyWindows s).calExpiry = s.calExpiry := rfl
@[simp] theorem State.emptyWindows_lines (s : State) : (State.emptyWindows s).lines = s.lines := rfl
@[simp] theorem State.emptyWindows_arrivals (s : State) : (State.emptyWindows s).arrivals = s.arrivals := rfl
@[simp] theorem State.emptyWindows_pairModes (s : State) : (State.emptyWindows s).pairModes = s.pairModes := rfl
@[simp] theorem State.emptyWindows_markers (s : State) : (State.emptyWindows s).markers = s.markers := rfl
@[simp] theorem State.emptyWindows_markerSubs (s : State) : (State.emptyWindows s).markerSubs = s.markerSubs := rfl
@[simp] theorem State.emptyWindows_markerPending (s : State) :
    (State.emptyWindows s).markerPending = s.markerPending := rfl
@[simp] theorem State.emptyWindows_pool (s : State) : (State.emptyWindows s).pool = s.pool := rfl
@[simp] theorem State.emptyWindows_ports (s : State) : (State.emptyWindows s).ports = s.ports := rfl

/-! ### emptyMarkerPorts -/

@[simp] theorem State.emptyMarkerPorts_pending (s : State) : (State.emptyMarkerPorts s).pending = s.pending := rfl
@[simp] theorem State.emptyMarkerPorts_tick (s : State) : (State.emptyMarkerPorts s).tick = s.tick := rfl
@[simp] theorem State.emptyMarkerPorts_edgeSeq (s : State) : (State.emptyMarkerPorts s).edgeSeq = s.edgeSeq := rfl
@[simp] theorem State.emptyMarkerPorts_free (s : State) : (State.emptyMarkerPorts s).free = s.free := rfl
@[simp] theorem State.emptyMarkerPorts_rolled (s : State) : (State.emptyMarkerPorts s).rolled = s.rolled := rfl
@[simp] theorem State.emptyMarkerPorts_mon (s : State) : (State.emptyMarkerPorts s).mon = s.mon := rfl
@[simp] theorem State.emptyMarkerPorts_rstnLow (s : State) : (State.emptyMarkerPorts s).rstnLow = s.rstnLow := rfl
@[simp] theorem State.emptyMarkerPorts_rstnAsserted (s : State) :
    (State.emptyMarkerPorts s).rstnAsserted = s.rstnAsserted := rfl
@[simp] theorem State.emptyMarkerPorts_rstnReleaseAt (s : State) :
    (State.emptyMarkerPorts s).rstnReleaseAt = s.rstnReleaseAt := rfl
@[simp] theorem State.emptyMarkerPorts_straps (s : State) : (State.emptyMarkerPorts s).straps = s.straps := rfl
@[simp] theorem State.emptyMarkerPorts_time (s : State) : (State.emptyMarkerPorts s).time = s.time := rfl
@[simp] theorem State.emptyMarkerPorts_secp (s : State) : (State.emptyMarkerPorts s).secp = s.secp := rfl
@[simp] theorem State.emptyMarkerPorts_secpRise (s : State) : (State.emptyMarkerPorts s).secpRise = s.secpRise := rfl
@[simp] theorem State.emptyMarkerPorts_secpFell (s : State) : (State.emptyMarkerPorts s).secpFell = s.secpFell := rfl
@[simp] theorem State.emptyMarkerPorts_disc (s : State) : (State.emptyMarkerPorts s).disc = s.disc := rfl
@[simp] theorem State.emptyMarkerPorts_interps (s : State) : (State.emptyMarkerPorts s).interps = s.interps := rfl
@[simp] theorem State.emptyMarkerPorts_calExpiry (s : State) : (State.emptyMarkerPorts s).calExpiry = s.calExpiry := rfl
@[simp] theorem State.emptyMarkerPorts_lines (s : State) : (State.emptyMarkerPorts s).lines = s.lines := rfl
@[simp] theorem State.emptyMarkerPorts_arrivals (s : State) : (State.emptyMarkerPorts s).arrivals = s.arrivals := rfl
@[simp] theorem State.emptyMarkerPorts_channels (s : State) : (State.emptyMarkerPorts s).channels = s.channels := rfl
@[simp] theorem State.emptyMarkerPorts_pairModes (s : State) : (State.emptyMarkerPorts s).pairModes = s.pairModes := rfl
@[simp] theorem State.emptyMarkerPorts_unmapped (s : State) : (State.emptyMarkerPorts s).unmapped = s.unmapped := rfl
@[simp] theorem State.emptyMarkerPorts_markers (s : State) : (State.emptyMarkerPorts s).markers = s.markers := rfl
@[simp] theorem State.emptyMarkerPorts_pool (s : State) : (State.emptyMarkerPorts s).pool = s.pool := rfl
@[simp] theorem State.emptyMarkerPorts_ports (s : State) : (State.emptyMarkerPorts s).ports = s.ports := rfl

/-! ### setIncrement -/

@[simp] theorem State.setIncrement_pending (n : Nat) (s : State) : (State.setIncrement n s).pending = s.pending := rfl
@[simp] theorem State.setIncrement_tick (n : Nat) (s : State) : (State.setIncrement n s).tick = s.tick := rfl
@[simp] theorem State.setIncrement_edgeSeq (n : Nat) (s : State) : (State.setIncrement n s).edgeSeq = s.edgeSeq := rfl
@[simp] theorem State.setIncrement_free (n : Nat) (s : State) : (State.setIncrement n s).free = s.free := rfl
@[simp] theorem State.setIncrement_mon (n : Nat) (s : State) : (State.setIncrement n s).mon = s.mon := rfl
@[simp] theorem State.setIncrement_rstnLow (n : Nat) (s : State) : (State.setIncrement n s).rstnLow = s.rstnLow := rfl
@[simp] theorem State.setIncrement_rstnAsserted (n : Nat) (s : State) :
    (State.setIncrement n s).rstnAsserted = s.rstnAsserted := rfl
@[simp] theorem State.setIncrement_rstnReleaseAt (n : Nat) (s : State) :
    (State.setIncrement n s).rstnReleaseAt = s.rstnReleaseAt := rfl
@[simp] theorem State.setIncrement_straps (n : Nat) (s : State) : (State.setIncrement n s).straps = s.straps := rfl
@[simp] theorem State.setIncrement_secp (n : Nat) (s : State) : (State.setIncrement n s).secp = s.secp := rfl
@[simp] theorem State.setIncrement_secpRise (n : Nat) (s : State) :
    (State.setIncrement n s).secpRise = s.secpRise := rfl
@[simp] theorem State.setIncrement_secpFell (n : Nat) (s : State) :
    (State.setIncrement n s).secpFell = s.secpFell := rfl
@[simp] theorem State.setIncrement_disc (n : Nat) (s : State) : (State.setIncrement n s).disc = s.disc := rfl
@[simp] theorem State.setIncrement_interps (n : Nat) (s : State) : (State.setIncrement n s).interps = s.interps := rfl
@[simp] theorem State.setIncrement_calExpiry (n : Nat) (s : State) :
    (State.setIncrement n s).calExpiry = s.calExpiry := rfl
@[simp] theorem State.setIncrement_lines (n : Nat) (s : State) : (State.setIncrement n s).lines = s.lines := rfl
@[simp] theorem State.setIncrement_arrivals (n : Nat) (s : State) :
    (State.setIncrement n s).arrivals = s.arrivals := rfl
@[simp] theorem State.setIncrement_channels (n : Nat) (s : State) :
    (State.setIncrement n s).channels = s.channels := rfl
@[simp] theorem State.setIncrement_pairModes (n : Nat) (s : State) :
    (State.setIncrement n s).pairModes = s.pairModes := rfl
@[simp] theorem State.setIncrement_unmapped (n : Nat) (s : State) :
    (State.setIncrement n s).unmapped = s.unmapped := rfl
@[simp] theorem State.setIncrement_markers (n : Nat) (s : State) : (State.setIncrement n s).markers = s.markers := rfl
@[simp] theorem State.setIncrement_markerSubs (n : Nat) (s : State) :
    (State.setIncrement n s).markerSubs = s.markerSubs := rfl
@[simp] theorem State.setIncrement_markerPending (n : Nat) (s : State) :
    (State.setIncrement n s).markerPending = s.markerPending := rfl
@[simp] theorem State.setIncrement_pool (n : Nat) (s : State) : (State.setIncrement n s).pool = s.pool := rfl
@[simp] theorem State.setIncrement_ports (n : Nat) (s : State) : (State.setIncrement n s).ports = s.ports := rfl
@[simp] theorem State.setIncrement_time (n : Nat) (s : State) :
    (State.setIncrement n s).time = s.time.reincrement n := rfl

/-! ### applyTerms -/

@[simp] theorem State.applyTerms_pending (r l : Int) (s : State) : (State.applyTerms r l s).pending = s.pending := rfl
@[simp] theorem State.applyTerms_tick (r l : Int) (s : State) : (State.applyTerms r l s).tick = s.tick := rfl
@[simp] theorem State.applyTerms_edgeSeq (r l : Int) (s : State) : (State.applyTerms r l s).edgeSeq = s.edgeSeq := rfl
@[simp] theorem State.applyTerms_free (r l : Int) (s : State) : (State.applyTerms r l s).free = s.free := rfl
@[simp] theorem State.applyTerms_mon (r l : Int) (s : State) : (State.applyTerms r l s).mon = s.mon := rfl
@[simp] theorem State.applyTerms_rstnLow (r l : Int) (s : State) : (State.applyTerms r l s).rstnLow = s.rstnLow := rfl
@[simp] theorem State.applyTerms_rstnAsserted (r l : Int) (s : State) :
    (State.applyTerms r l s).rstnAsserted = s.rstnAsserted := rfl
@[simp] theorem State.applyTerms_rstnReleaseAt (r l : Int) (s : State) :
    (State.applyTerms r l s).rstnReleaseAt = s.rstnReleaseAt := rfl
@[simp] theorem State.applyTerms_straps (r l : Int) (s : State) : (State.applyTerms r l s).straps = s.straps := rfl
@[simp] theorem State.applyTerms_secp (r l : Int) (s : State) : (State.applyTerms r l s).secp = s.secp := rfl
@[simp] theorem State.applyTerms_secpRise (r l : Int) (s : State) :
    (State.applyTerms r l s).secpRise = s.secpRise := rfl
@[simp] theorem State.applyTerms_secpFell (r l : Int) (s : State) :
    (State.applyTerms r l s).secpFell = s.secpFell := rfl
@[simp] theorem State.applyTerms_interps (r l : Int) (s : State) : (State.applyTerms r l s).interps = s.interps := rfl
@[simp] theorem State.applyTerms_calExpiry (r l : Int) (s : State) :
    (State.applyTerms r l s).calExpiry = s.calExpiry := rfl
@[simp] theorem State.applyTerms_lines (r l : Int) (s : State) : (State.applyTerms r l s).lines = s.lines := rfl
@[simp] theorem State.applyTerms_arrivals (r l : Int) (s : State) :
    (State.applyTerms r l s).arrivals = s.arrivals := rfl
@[simp] theorem State.applyTerms_channels (r l : Int) (s : State) :
    (State.applyTerms r l s).channels = s.channels := rfl
@[simp] theorem State.applyTerms_pairModes (r l : Int) (s : State) :
    (State.applyTerms r l s).pairModes = s.pairModes := rfl
@[simp] theorem State.applyTerms_unmapped (r l : Int) (s : State) :
    (State.applyTerms r l s).unmapped = s.unmapped := rfl
@[simp] theorem State.applyTerms_markers (r l : Int) (s : State) : (State.applyTerms r l s).markers = s.markers := rfl
@[simp] theorem State.applyTerms_markerSubs (r l : Int) (s : State) :
    (State.applyTerms r l s).markerSubs = s.markerSubs := rfl
@[simp] theorem State.applyTerms_markerPending (r l : Int) (s : State) :
    (State.applyTerms r l s).markerPending = s.markerPending := rfl
@[simp] theorem State.applyTerms_pool (r l : Int) (s : State) : (State.applyTerms r l s).pool = s.pool := rfl
@[simp] theorem State.applyTerms_ports (r l : Int) (s : State) : (State.applyTerms r l s).ports = s.ports := rfl
@[simp] theorem State.applyTerms_time (r l : Int) (s : State) :
    (State.applyTerms r l s).time = s.time.reincrement (increment r l) := rfl
@[simp] theorem State.applyTerms_disc (r l : Int) (s : State) :
    (State.applyTerms r l s).disc = { s.disc with rate := r, slew := l } := rfl

/-! ### rereadAs -/

@[simp] theorem State.rereadAs_pending (r : Reading) (s : State) : (State.rereadAs r s).pending = s.pending := rfl
@[simp] theorem State.rereadAs_tick (r : Reading) (s : State) : (State.rereadAs r s).tick = s.tick := rfl
@[simp] theorem State.rereadAs_edgeSeq (r : Reading) (s : State) : (State.rereadAs r s).edgeSeq = s.edgeSeq := rfl
@[simp] theorem State.rereadAs_free (r : Reading) (s : State) : (State.rereadAs r s).free = s.free := rfl
@[simp] theorem State.rereadAs_rolled (r : Reading) (s : State) : (State.rereadAs r s).rolled = s.rolled := rfl
@[simp] theorem State.rereadAs_mon (r : Reading) (s : State) : (State.rereadAs r s).mon = s.mon := rfl
@[simp] theorem State.rereadAs_rstnLow (r : Reading) (s : State) : (State.rereadAs r s).rstnLow = s.rstnLow := rfl
@[simp] theorem State.rereadAs_rstnAsserted (r : Reading) (s : State) :
    (State.rereadAs r s).rstnAsserted = s.rstnAsserted := rfl
@[simp] theorem State.rereadAs_rstnReleaseAt (r : Reading) (s : State) :
    (State.rereadAs r s).rstnReleaseAt = s.rstnReleaseAt := rfl
@[simp] theorem State.rereadAs_straps (r : Reading) (s : State) : (State.rereadAs r s).straps = s.straps := rfl
@[simp] theorem State.rereadAs_time (r : Reading) (s : State) : (State.rereadAs r s).time = s.time := rfl
@[simp] theorem State.rereadAs_secp (r : Reading) (s : State) : (State.rereadAs r s).secp = s.secp := rfl
@[simp] theorem State.rereadAs_secpRise (r : Reading) (s : State) : (State.rereadAs r s).secpRise = s.secpRise := rfl
@[simp] theorem State.rereadAs_secpFell (r : Reading) (s : State) : (State.rereadAs r s).secpFell = s.secpFell := rfl
@[simp] theorem State.rereadAs_disc (r : Reading) (s : State) : (State.rereadAs r s).disc = s.disc := rfl
@[simp] theorem State.rereadAs_calExpiry (r : Reading) (s : State) : (State.rereadAs r s).calExpiry = s.calExpiry := rfl
@[simp] theorem State.rereadAs_lines (r : Reading) (s : State) : (State.rereadAs r s).lines = s.lines := rfl
@[simp] theorem State.rereadAs_arrivals (r : Reading) (s : State) : (State.rereadAs r s).arrivals = s.arrivals := rfl
@[simp] theorem State.rereadAs_channels (r : Reading) (s : State) : (State.rereadAs r s).channels = s.channels := rfl
@[simp] theorem State.rereadAs_pairModes (r : Reading) (s : State) : (State.rereadAs r s).pairModes = s.pairModes := rfl
@[simp] theorem State.rereadAs_unmapped (r : Reading) (s : State) : (State.rereadAs r s).unmapped = s.unmapped := rfl
@[simp] theorem State.rereadAs_markers (r : Reading) (s : State) : (State.rereadAs r s).markers = s.markers := rfl
@[simp] theorem State.rereadAs_markerSubs (r : Reading) (s : State) :
    (State.rereadAs r s).markerSubs = s.markerSubs := rfl
@[simp] theorem State.rereadAs_markerPending (r : Reading) (s : State) :
    (State.rereadAs r s).markerPending = s.markerPending := rfl

/-! ### reread -/

@[simp] theorem State.reread_pending (s : State) : (State.reread s).pending = s.pending := rfl
@[simp] theorem State.reread_tick (s : State) : (State.reread s).tick = s.tick := rfl
@[simp] theorem State.reread_edgeSeq (s : State) : (State.reread s).edgeSeq = s.edgeSeq := rfl
@[simp] theorem State.reread_free (s : State) : (State.reread s).free = s.free := rfl
@[simp] theorem State.reread_rolled (s : State) : (State.reread s).rolled = s.rolled := rfl
@[simp] theorem State.reread_mon (s : State) : (State.reread s).mon = s.mon := rfl
@[simp] theorem State.reread_rstnLow (s : State) : (State.reread s).rstnLow = s.rstnLow := rfl
@[simp] theorem State.reread_rstnAsserted (s : State) : (State.reread s).rstnAsserted = s.rstnAsserted := rfl
@[simp] theorem State.reread_rstnReleaseAt (s : State) : (State.reread s).rstnReleaseAt = s.rstnReleaseAt := rfl
@[simp] theorem State.reread_straps (s : State) : (State.reread s).straps = s.straps := rfl
@[simp] theorem State.reread_time (s : State) : (State.reread s).time = s.time := rfl
@[simp] theorem State.reread_secpRise (s : State) : (State.reread s).secpRise = s.secpRise := rfl
@[simp] theorem State.reread_disc (s : State) : (State.reread s).disc = s.disc := rfl
@[simp] theorem State.reread_calExpiry (s : State) : (State.reread s).calExpiry = s.calExpiry := rfl
@[simp] theorem State.reread_lines (s : State) : (State.reread s).lines = s.lines := rfl
@[simp] theorem State.reread_arrivals (s : State) : (State.reread s).arrivals = s.arrivals := rfl
@[simp] theorem State.reread_channels (s : State) : (State.reread s).channels = s.channels := rfl
@[simp] theorem State.reread_pairModes (s : State) : (State.reread s).pairModes = s.pairModes := rfl
@[simp] theorem State.reread_unmapped (s : State) : (State.reread s).unmapped = s.unmapped := rfl
@[simp] theorem State.reread_markers (s : State) : (State.reread s).markers = s.markers := rfl
@[simp] theorem State.reread_markerSubs (s : State) : (State.reread s).markerSubs = s.markerSubs := rfl
@[simp] theorem State.reread_markerPending (s : State) : (State.reread s).markerPending = s.markerPending := rfl

/-! ### Port.reread -/

@[simp] theorem Port.reread_state (p : Fin 3) (t : Nat) (r : Reading) (q : Port) :
    (q.reread p t r).state = q.state := rfl
@[simp] theorem Port.reread_permit (p : Fin 3) (t : Nat) (r : Reading) (q : Port) :
    (q.reread p t r).permit = q.permit := rfl
@[simp] theorem Port.reread_credits (p : Fin 3) (t : Nat) (r : Reading) (q : Port) :
    (q.reread p t r).credits = q.credits := rfl
@[simp] theorem Port.reread_pacing (p : Fin 3) (t : Nat) (r : Reading) (q : Port) :
    (q.reread p t r).pacing = q.pacing := rfl
@[simp] theorem Port.reread_holdTimer (p : Fin 3) (t : Nat) (r : Reading) (q : Port) :
    (q.reread p t r).holdTimer = q.holdTimer := rfl
@[simp] theorem Port.reread_silenceTimer (p : Fin 3) (t : Nat) (r : Reading) (q : Port) :
    (q.reread p t r).silenceTimer = q.silenceTimer := rfl
@[simp] theorem Port.reread_cause (p : Fin 3) (t : Nat) (r : Reading) (q : Port) :
    (q.reread p t r).cause = q.cause := rfl
@[simp] theorem Port.reread_counters (p : Fin 3) (t : Nat) (r : Reading) (q : Port) :
    (q.reread p t r).counters = q.counters := rfl
@[simp] theorem Port.reread_queue (p : Fin 3) (t : Nat) (r : Reading) (q : Port) :
    (q.reread p t r).queue = q.queue := rfl
@[simp] theorem Port.reread_quota (p : Fin 3) (t : Nat) (r : Reading) (q : Port) :
    (q.reread p t r).quota = q.quota := rfl
@[simp] theorem Port.reread_lagging (p : Fin 3) (t : Nat) (r : Reading) (q : Port) :
    (q.reread p t r).lagging = q.lagging := rfl
@[simp] theorem Port.reread_lossTotal (p : Fin 3) (t : Nat) (r : Reading) (q : Port) :
    (q.reread p t r).lossTotal = q.lossTotal := rfl
@[simp] theorem Port.reread_attention (p : Fin 3) (t : Nat) (r : Reading) (q : Port) :
    (q.reread p t r).attention = q.attention := rfl
@[simp] theorem Port.reread_hbTimer (p : Fin 3) (t : Nat) (r : Reading) (q : Port) :
    (q.reread p t r).hbTimer = q.hbTimer := rfl
@[simp] theorem Port.reread_hbPending (p : Fin 3) (t : Nat) (r : Reading) (q : Port) :
    (q.reread p t r).hbPending = q.hbPending := rfl
@[simp] theorem Port.reread_orphans (p : Fin 3) (t : Nat) (r : Reading) (q : Port) :
    (q.reread p t r).orphans = q.orphans := rfl
@[simp] theorem Port.reread_linkLost (p : Fin 3) (t : Nat) (r : Reading) (q : Port) :
    (q.reread p t r).linkLost = q.linkLost := rfl

/-! ### narrowSecp -/

@[simp] theorem State.narrowSecp_pending (w : Nat) (s : State) : (State.narrowSecp w s).pending = s.pending := rfl
@[simp] theorem State.narrowSecp_tick (w : Nat) (s : State) : (State.narrowSecp w s).tick = s.tick := rfl
@[simp] theorem State.narrowSecp_edgeSeq (w : Nat) (s : State) : (State.narrowSecp w s).edgeSeq = s.edgeSeq := rfl
@[simp] theorem State.narrowSecp_free (w : Nat) (s : State) : (State.narrowSecp w s).free = s.free := rfl
@[simp] theorem State.narrowSecp_rolled (w : Nat) (s : State) : (State.narrowSecp w s).rolled = s.rolled := rfl
@[simp] theorem State.narrowSecp_mon (w : Nat) (s : State) : (State.narrowSecp w s).mon = s.mon := rfl
@[simp] theorem State.narrowSecp_rstnLow (w : Nat) (s : State) : (State.narrowSecp w s).rstnLow = s.rstnLow := rfl
@[simp] theorem State.narrowSecp_rstnAsserted (w : Nat) (s : State) :
    (State.narrowSecp w s).rstnAsserted = s.rstnAsserted := rfl
@[simp] theorem State.narrowSecp_rstnReleaseAt (w : Nat) (s : State) :
    (State.narrowSecp w s).rstnReleaseAt = s.rstnReleaseAt := rfl
@[simp] theorem State.narrowSecp_straps (w : Nat) (s : State) : (State.narrowSecp w s).straps = s.straps := rfl
@[simp] theorem State.narrowSecp_time (w : Nat) (s : State) : (State.narrowSecp w s).time = s.time := rfl
@[simp] theorem State.narrowSecp_secp (w : Nat) (s : State) : (State.narrowSecp w s).secp = s.secp := rfl
@[simp] theorem State.narrowSecp_secpRise (w : Nat) (s : State) : (State.narrowSecp w s).secpRise = s.secpRise := rfl
@[simp] theorem State.narrowSecp_disc (w : Nat) (s : State) : (State.narrowSecp w s).disc = s.disc := rfl
@[simp] theorem State.narrowSecp_interps (w : Nat) (s : State) : (State.narrowSecp w s).interps = s.interps := rfl
@[simp] theorem State.narrowSecp_calExpiry (w : Nat) (s : State) : (State.narrowSecp w s).calExpiry = s.calExpiry := rfl
@[simp] theorem State.narrowSecp_lines (w : Nat) (s : State) : (State.narrowSecp w s).lines = s.lines := rfl
@[simp] theorem State.narrowSecp_arrivals (w : Nat) (s : State) : (State.narrowSecp w s).arrivals = s.arrivals := rfl
@[simp] theorem State.narrowSecp_channels (w : Nat) (s : State) : (State.narrowSecp w s).channels = s.channels := rfl
@[simp] theorem State.narrowSecp_pairModes (w : Nat) (s : State) : (State.narrowSecp w s).pairModes = s.pairModes := rfl
@[simp] theorem State.narrowSecp_unmapped (w : Nat) (s : State) : (State.narrowSecp w s).unmapped = s.unmapped := rfl
@[simp] theorem State.narrowSecp_markers (w : Nat) (s : State) : (State.narrowSecp w s).markers = s.markers := rfl
@[simp] theorem State.narrowSecp_markerSubs (w : Nat) (s : State) :
    (State.narrowSecp w s).markerSubs = s.markerSubs := rfl
@[simp] theorem State.narrowSecp_markerPending (w : Nat) (s : State) :
    (State.narrowSecp w s).markerPending = s.markerPending := rfl
@[simp] theorem State.narrowSecp_pool (w : Nat) (s : State) : (State.narrowSecp w s).pool = s.pool := rfl
@[simp] theorem State.narrowSecp_ports (w : Nat) (s : State) : (State.narrowSecp w s).ports = s.ports := rfl

/-! ### put -/

@[simp] theorem Timescale.put_epoch (a b : Nat) (t : Timescale) : (t.put a b).epoch = t.epoch := rfl
@[simp] theorem Timescale.put_inc (a b : Nat) (t : Timescale) : (t.put a b).inc = t.inc := rfl
@[simp] theorem Timescale.put_sec (a b : Nat) (t : Timescale) : (t.put a b).sec = a := rfl
@[simp] theorem Timescale.put_excess (a b : Nat) (t : Timescale) : (t.put a b).excess = 0 := rfl

/-! ### settle -/

@[simp] theorem Port.settle_state (t : Nat) (p : Port) : (p.settle t).state = p.state := rfl
@[simp] theorem Port.settle_permit (t : Nat) (p : Port) : (p.settle t).permit = p.permit := rfl
@[simp] theorem Port.settle_credits (t : Nat) (p : Port) : (p.settle t).credits = p.credits := rfl
@[simp] theorem Port.settle_pacing (t : Nat) (p : Port) : (p.settle t).pacing = p.pacing := rfl
@[simp] theorem Port.settle_holdTimer (t : Nat) (p : Port) : (p.settle t).holdTimer = p.holdTimer := rfl
@[simp] theorem Port.settle_cmds (t : Nat) (p : Port) : (p.settle t).cmds = p.cmds := rfl
@[simp] theorem Port.settle_tx (t : Nat) (p : Port) : (p.settle t).tx = p.tx := rfl
@[simp] theorem Port.settle_cause (t : Nat) (p : Port) : (p.settle t).cause = p.cause := rfl
@[simp] theorem Port.settle_counters (t : Nat) (p : Port) : (p.settle t).counters = p.counters := rfl
@[simp] theorem Port.settle_queue (t : Nat) (p : Port) : (p.settle t).queue = p.queue := rfl
@[simp] theorem Port.settle_quota (t : Nat) (p : Port) : (p.settle t).quota = p.quota := rfl
@[simp] theorem Port.settle_lossTotal (t : Nat) (p : Port) : (p.settle t).lossTotal = p.lossTotal := rfl
@[simp] theorem Port.settle_notices (t : Nat) (p : Port) : (p.settle t).notices = p.notices := rfl
@[simp] theorem Port.settle_attention (t : Nat) (p : Port) : (p.settle t).attention = p.attention := rfl
@[simp] theorem Port.settle_hbTimer (t : Nat) (p : Port) : (p.settle t).hbTimer = p.hbTimer := rfl
@[simp] theorem Port.settle_hbPending (t : Nat) (p : Port) : (p.settle t).hbPending = p.hbPending := rfl
@[simp] theorem Port.settle_orphans (t : Nat) (p : Port) : (p.settle t).orphans = p.orphans := rfl
@[simp] theorem Port.settle_linkLost (t : Nat) (p : Port) : (p.settle t).linkLost = p.linkLost := rfl
@[simp] theorem Port.settle_silent (t : Nat) (p : Port) : (p.settle t).silent = p.silent := rfl
@[simp] theorem Port.settle_inService (t : Nat) (p : Port) : (p.settle t).inService = p.inService := rfl
@[simp] theorem Port.settle_hasRoom (t : Nat) (p : Port) : (p.settle t).hasRoom = p.hasRoom := rfl
@[simp] theorem Port.settle_takeable (t : Nat) (p : Port) : (p.settle t).takeable = p.takeable := rfl
@[simp] theorem Port.settle_lagging (t : Nat) (p : Port) : (p.settle t).lagging = (p.lagging && !p.hasRoom) := rfl

end Sys2Proof.Machine
end

