-- ==== Sys2Proof/Laws/Ops.lean ====
section
/-! SUPPORT. What the shared operations can do, one lemma each: counts, ports, the channel table, the pool, notices,
the window, byte layouts, the time and the taking of commands. -/

namespace Sys2Proof.Machine

/-! ## Counts -/

theorem satInc_le (n : Nat) : satInc n ≤ Config.counterMax := Nat.min_le_right _ _

theorem satAdd_le (n k : Nat) : satAdd n k ≤ Config.counterMax := Nat.min_le_right _ _

theorem clampNat_bounds {lo hi : Nat} (n : Nat) (h : lo ≤ hi) : lo ≤ clampNat lo hi n ∧ clampNat lo hi n ≤ hi := by
  unfold clampNat; omega

theorem clampNat_eq {lo hi n : Nat} (h₁ : lo ≤ n) (h₂ : n ≤ hi) : clampNat lo hi n = n := by
  unfold clampNat; omega

theorem clampInt_bounds {lo hi : Int} (n : Int) (h : lo ≤ hi) : lo ≤ clampInt lo hi n ∧ clampInt lo hi n ≤ hi := by
  unfold clampInt; omega

theorem clampInt_eq {lo hi n : Int} (h₁ : lo ≤ n) (h₂ : n ≤ hi) : clampInt lo hi n = n := by
  unfold clampInt; omega

/-! ## Sweeps -/

/-- What every step of a sweep keeps, the sweep keeps. -/
theorem sweep_keeps {α σ : Type} (P : σ → Prop) (f : α → σ → σ) (h : ∀ x s, P s → P (f x s)) :
    ∀ (xs : List α) (s : σ), P s → P (sweep f xs s)
  | [], _, hs => hs
  | x :: xs, s, hs => sweep_keeps P f h xs (f x s) (h x s hs)

/-- What a step keeps, its repetition keeps. -/
theorem times_keeps {σ : Type} (P : σ → Prop) (f : σ → σ) (h : ∀ s, P s → P (f s)) :
    ∀ (n : Nat) (s : σ), P s → P (times f n s)
  | 0, _, hs => hs
  | n + 1, s, hs => times_keeps P f h n (f s) (h s hs)

/-! ## Banks: a read after a write -/

theorem State.updPort_get (p q : Fin 3) (f : Port → Port) (s : State) :
    (s.updPort p f).ports[q] = if q = p then (f s.ports[p]).settle s.tick else s.ports[q] := by
  have h : p.val = q.val ↔ q = p := by rw [Fin.ext_iff]; exact eq_comm
  simp only [State.updPort, Fin.getElem_fin, Vector.getElem_set, h]

theorem State.updPort_same (p : Fin 3) (f : Port → Port) (s : State) :
    (s.updPort p f).ports[p] = (f s.ports[p]).settle s.tick := by rw [State.updPort_get]; simp

theorem State.updPort_other {p q : Fin 3} (f : Port → Port) (s : State) (h : q ≠ p) :
    (s.updPort p f).ports[q] = s.ports[q] := by rw [State.updPort_get]; simp [h]

theorem State.mapPorts_get (p : Fin 3) (f : Fin 3 → Port → Port) (s : State) :
    (s.mapPorts f).ports[p] = (f p s.ports[p]).settle s.tick := by
  match p with
  | 0 => rfl
  | 1 => rfl
  | 2 => rfl

theorem State.updLine_get (l k : Fin 8) (f : Line → Line) (s : State) :
    (s.updLine l f).lines[k] = if k = l then f s.lines[l] else s.lines[k] := by
  have h : l.val = k.val ↔ k = l := by rw [Fin.ext_iff]; exact eq_comm
  simp only [State.updLine, Fin.getElem_fin, Vector.getElem_set, h]

theorem State.mapLines_get (l : Fin 8) (f : Line → Line) (s : State) :
    (s.mapLines f).lines[l] = f s.lines[l] := by
  match l with
  | 0 | 1 | 2 | 3 | 4 | 5 | 6 | 7 => rfl

theorem State.updMarker_get (m k : Fin 4) (f : Marker → Marker) (s : State) :
    (s.updMarker m f).markers[k] = if k = m then f s.markers[m] else s.markers[k] := by
  have h : m.val = k.val ↔ k = m := by rw [Fin.ext_iff]; exact eq_comm
  simp only [State.updMarker, Fin.getElem_fin, Vector.getElem_set, h]

theorem State.mapMarkers_get (m : Fin 4) (f : Marker → Marker) (s : State) :
    (s.mapMarkers f).markers[m] = f s.markers[m] := by
  match m with
  | 0 | 1 | 2 | 3 => rfl

theorem State.updInterp_get (i : Input) (k : Fin 13) (f : Interp → Interp) (s : State) :
    (s.updInterp i f).interps[k] = if k = Input.index i then f s.interps[Input.index i] else s.interps[k] := by
  have h : (Input.index i).val = k.val ↔ k = Input.index i := by rw [Fin.ext_iff]; exact eq_comm
  simp only [State.updInterp, Fin.getElem_fin, Vector.getElem_set, h]

theorem State.mapInterps_get (k : Fin 13) (f : Interp → Interp) (s : State) :
    (s.mapInterps f).interps[k] = f s.interps[k] := by
  match k with
  | 0 | 1 | 2 | 3 | 4 | 5 | 6 | 7 | 8 | 9 | 10 | 11 | 12 => rfl

/-! ## Ports -/

/-- A settled port has a silence timer exactly while the silence condition holds (09 R170). -/
theorem Port.settle_silenceTimer (t : Nat) (p : Port) : (p.settle t).silenceTimer.isSome = p.silent := by
  unfold Port.settle; cases h : p.silent <;> simp

/-- A port that lags has no room (08 R155). -/
theorem Port.settle_lagging_room (t : Nat) (p : Port) (h : (p.settle t).lagging = true) : p.hasRoom = false := by
  simp at h; exact h.2

/-! ## The channel table -/

theorem tableGet_set_same (i : Nat) (e : Entry) (t : List (Nat × Entry)) : tableGet i (tableSet i e t) = some e := by
  induction t with
  | nil => simp [tableSet, tableGet]
  | cons x t ih =>
    obtain ⟨j, y⟩ := x
    simp only [tableSet]
    split
    · simp [tableGet]
    · split
      · simp [tableGet]
      · simp [tableGet, *]

theorem tableGet_set_other {i k : Nat} (e : Entry) (t : List (Nat × Entry)) (h : k ≠ i) :
    tableGet k (tableSet i e t) = tableGet k t := by
  induction t with
  | nil => simp [tableSet, tableGet, h]
  | cons x t ih =>
    obtain ⟨j, y⟩ := x
    simp only [tableSet]
    split
    · simp [tableGet, h]
    · split
      · subst_vars; simp [tableGet, h]
      · simp only [tableGet]; rw [ih]

theorem tableSet_lower {i k : Nat} (e : Entry) (t : List (Nat × Entry)) (hk : k < i)
    (h : ∀ q ∈ t, k < q.1) : ∀ q ∈ tableSet i e t, k < q.1 := by
  induction t with
  | nil => intro q hq; simp [tableSet] at hq; subst hq; exact hk
  | cons x t ih =>
    obtain ⟨j, y⟩ := x
    simp only [tableSet]
    have hj : k < j := h (j, y) (by simp)
    have ht : ∀ q ∈ t, k < q.1 := fun q hq => h q (by simp [hq])
    split
    · intro q hq
      simp only [List.mem_cons] at hq
      obtain rfl | rfl | hq := hq
      · exact hk
      · exact hj
      · exact ht q hq
    · split
      · intro q hq
        simp only [List.mem_cons] at hq
        obtain rfl | hq := hq
        · exact hk
        · exact ht q hq
      · intro q hq
        simp only [List.mem_cons] at hq
        obtain rfl | hq := hq
        · exact hj
        · exact ih ht q hq

/-- Writing an entry keeps the indexes rising. -/
theorem tableSet_sorted (i : Nat) (e : Entry) (t : List (Nat × Entry))
    (h : (t.map Prod.fst).Pairwise (· < ·)) : ((tableSet i e t).map Prod.fst).Pairwise (· < ·) := by
  induction t with
  | nil => simp [tableSet]
  | cons x t ih =>
    obtain ⟨j, y⟩ := x
    simp only [List.map_cons, List.pairwise_cons] at h
    have hr : ∀ q ∈ t, j < q.1 := fun q hq => h.1 q.1 (List.mem_map_of_mem hq)
    simp only [tableSet]
    split
    · rename_i hij
      simp only [List.map_cons, List.pairwise_cons, List.mem_cons]
      refine ⟨?_, h.1, h.2⟩
      rintro a (rfl | ha)
      · exact hij
      · exact Nat.lt_trans hij (h.1 a ha)
    · split
      · subst_vars; simpa using h
      · rename_i h₁ h₂
        simp only [List.map_cons, List.pairwise_cons]
        refine ⟨?_, ih h.2⟩
        intro a ha
        obtain ⟨q, hq, rfl⟩ := List.mem_map.1 ha
        exact tableSet_lower e t (by omega) hr q hq

/-- Making an index EMPTY keeps the indexes rising. -/
theorem tableErase_sorted (i : Nat) (t : List (Nat × Entry)) (h : (t.map Prod.fst).Pairwise (· < ·)) :
    ((tableErase i t).map Prod.fst).Pairwise (· < ·) :=
  h.sublist (List.filter_sublist.map Prod.fst)

/-- Changing every entry keeps the indexes. -/
theorem tableMap_fst (f : Nat → Entry → Entry) (t : List (Nat × Entry)) :
    (tableMap f t).map Prod.fst = t.map Prod.fst := by simp [tableMap, Function.comp_def]

theorem tableGet_map (f : Nat → Entry → Entry) (i : Nat) (t : List (Nat × Entry)) :
    tableGet i (tableMap f t) = (tableGet i t).map (f i) := by
  induction t with
  | nil => rfl
  | cons x t ih =>
    obtain ⟨j, y⟩ := x
    simp only [tableMap, List.map_cons, tableGet]
    split
    · subst_vars; rfl
    · exact ih

theorem tableGet_erase_same (i : Nat) (t : List (Nat × Entry)) : tableGet i (tableErase i t) = none := by
  induction t with
  | nil => rfl
  | cons x t ih =>
    obtain ⟨j, y⟩ := x
    simp only [tableErase, List.filter_cons]
    split
    · rename_i h
      simp only [decide_eq_true_eq] at h
      simp only [tableGet]; rw [if_neg (Ne.symm h)]; exact ih
    · exact ih

theorem tableGet_erase_other {i k : Nat} (t : List (Nat × Entry)) (h : k ≠ i) :
    tableGet k (tableErase i t) = tableGet k t := by
  induction t with
  | nil => rfl
  | cons x t ih =>
    obtain ⟨j, y⟩ := x
    simp only [tableErase, List.filter_cons]
    split
    · simp only [tableGet]; split
      · rfl
      · exact ih
    · rename_i hj
      simp only [decide_eq_true_eq, not_not] at hj
      subst hj
      simp only [tableGet, if_neg h]; exact ih

/-! ## Notices -/

/-- Raising a notice leaves the pending notices of the other kinds as they are (08 R158). -/
theorem raiseInto_other (b : NoticeBody) (n : Notice) (ns : List Notice) (h : n.body.kind ≠ b.kind) :
    n ∈ raiseInto b ns ↔ n ∈ ns := by
  induction ns with
  | nil => simp only [raiseInto, List.mem_singleton, List.not_mem_nil, iff_false]; rintro rfl; exact h rfl
  | cons x xs ih =>
    simp only [raiseInto]
    split
    · rename_i hx
      simp only [List.mem_cons]
      constructor
      · rintro (rfl | hm)
        · exfalso; apply h
          cases hb : x.body <;> cases b <;> simp_all [NoticeBody.merge, NoticeBody.kind]
        · exact .inr hm
      · rintro (rfl | hm)
        · exact absurd hx h
        · exact .inr hm
    · simp only [List.mem_cons, ih]

/-- A kind is pending after it is raised. -/
theorem raiseInto_kinds (b : NoticeBody) (ns : List Notice) :
    (raiseInto b ns).map (fun n => n.body.kind) =
      if b.kind ∈ ns.map (fun n => n.body.kind) then ns.map fun n => n.body.kind
      else ns.map (fun n => n.body.kind) ++ [b.kind] := by
  induction ns with
  | nil => simp [raiseInto]
  | cons x xs ih =>
    simp only [raiseInto]
    split
    · rename_i hx
      have hm : (NoticeBody.merge x.body b).kind = b.kind := by
        cases hb : x.body <;> cases b <;> simp_all [NoticeBody.merge, NoticeBody.kind]
      simp [hm, hx]
    · rename_i hx
      simp only [List.map_cons, ih, List.mem_cons]
      by_cases hk : b.kind ∈ xs.map fun n => n.body.kind
      · simp only [hk, or_true, if_true]
      · simp only [hk, or_false, if_false, Ne.symm hx, List.cons_append]

/-- The pending notices of a port have distinct kinds whatever is raised. -/
theorem raiseInto_nodup (b : NoticeBody) (ns : List Notice) (h : (ns.map fun n => n.body.kind).Nodup) :
    ((raiseInto b ns).map fun n => n.body.kind).Nodup := by
  rw [raiseInto_kinds]
  split
  · exact h
  · rename_i hb
    exact List.nodup_append.2 ⟨h, List.nodup_singleton _, by
      intro a ha c hc; simp only [List.mem_singleton] at hc; subst hc; rintro rfl; exact hb ha⟩

/-! ## The window -/

theorem markRange_length (line : Fin 8) (st : Stamp) (d c : Nat) (first : Slot) (slots : List Slot)
    (hc : 1 ≤ c) (h : d + c ≤ slots.length) : (markRange line st d c first slots).length = slots.length := by
  simp only [markRange, List.length_append, List.length_take, List.length_cons, List.length_map, List.length_drop]
  omega

theorem baseWindow_length (line : Fin 8) (st : Stamp) (s : BitVec 32) (c : Nat) (h : c ≤ 64) :
    (baseWindow line st s c).slots.length = 64 := by simp [baseWindow]; omega

theorem PairWindow.advance_length (n : Nat) (b : BitVec 32) (w : PairWindow) (h : w.slots.length = 64) :
    (w.advance n b).slots.length = 64 := by
  simp only [PairWindow.advance, List.length_append, List.length_drop, List.length_replicate, h]; omega

theorem rangeCount_bounds (c : Option Nat) : 1 ≤ rangeCount c ∧ rangeCount c ≤ 64 := by
  cases c with
  | none => simp [rangeCount]
  | some n => simpa [rangeCount] using clampNat_bounds n (by omega : 1 ≤ 64)

/-- After a take the deadline is armed exactly while there is a hole (06 R122, R123). -/
theorem PairWindow.rearm_deadline (tick : Nat) (st : Stamp) (g : Nat) (w : PairWindow) :
    (w.rearm tick st g).deadline.isSome = w.hasHole := by
  unfold PairWindow.rearm; cases h : w.hasHole <;> simp

/-! ## Bytes -/

@[simp] theorem toBytes_length (k n : Nat) : (toBytes k n).length = k := by
  induction k generalizing n with
  | zero => rfl
  | succ k ih => simp [toBytes, ih]

/-- A frame followed by its check is good (11 R190). -/
theorem crcGood_append (bs : List Byte) : crcGood (bs ++ crcBytes bs) = true := by
  have h : (crcBytes bs).length = 4 := rfl
  have h₂ : (bs ++ crcBytes bs).length - 4 = bs.length := by rw [List.length_append, h]; omega
  unfold crcGood
  rw [h₂]
  simp

@[simp] theorem padTo_length (k : Nat) (bs : List Byte) : (padTo k bs).length = k := by
  simp [padTo]

@[simp] theorem Item.bytes_length (i : Item) : i.bytes.length = 32 := by cases i <;> simp [Item.bytes]

/-! ## Time -/

theorem fineOffset_le (t : CalTable) (k : Fin 32) : fineOffset t k ≤ 639 := Nat.min_le_right _ _

/-- The time within the second that is put is the time within the second. -/
theorem Timescale.put_within (sec w : Nat) (t : Timescale) : (t.put sec w).within = w := by
  simp only [Timescale.put, Timescale.within]; omega

/-- The greatest value has the greatest time within the second. -/
theorem Timescale.atMax_within (n : Nat) (t : Timescale) : (t.atMax n).within = maxWithin := by
  simp only [Timescale.atMax, Timescale.within, maxWithin, Config.unitsPerSec]; norm_num

/-- Below the end of the second a tick adds the increment and nothing else (01 R4). -/
theorem Timescale.addTick_below (t : Timescale) (h : t.within + t.inc < Config.unitsPerSec) :
    t.addTick = t.put t.sec (t.within + t.inc) ∧ t.rolls = false := by
  simp [Timescale.addTick, Timescale.rolls, h]

/-- At the end of the second a tick is a rollover (01 R5). -/
theorem Timescale.addTick_roll (t : Timescale) (h : Config.unitsPerSec ≤ t.within + t.inc)
    (hs : t.sec < Config.maxSec) :
    t.addTick = t.put (t.sec + 1) (t.within + t.inc - Config.unitsPerSec) ∧ t.rolls = true := by
  simp [Timescale.addTick, Timescale.rolls, Nat.not_lt.2 h, Nat.not_le.2 hs, h, hs]

/-- At the end of the last second a tick leaves the greatest value and is no rollover (01 R1, R5). -/
theorem Timescale.addTick_max (t : Timescale) (h : Config.unitsPerSec ≤ t.within + t.inc)
    (hs : Config.maxSec ≤ t.sec) : t.addTick = t.atMax (t.within + t.inc - maxWithin) ∧ t.rolls = false := by
  simp [Timescale.addTick, Timescale.rolls, Nat.not_lt.2 h, Nat.not_lt.2 hs, hs]

/-- An increment that does not change leaves the value as it is (01 R3). -/
theorem Timescale.reincrement_same (t : Timescale) : t.reincrement t.inc = t := by simp [Timescale.reincrement]

/-! ## Taking a command -/

/-- What taking a command can do: nothing, or what the owner does with the command the port holds, and its
answer (09 R175). -/
theorem State.takeCommand_spec (p : Fin 3) (f : Command → Option (State → State × Reply)) (s : State) :
    s.takeCommand p f = s ∨
      ∃ c k act, s.running = true ∧ s.ports[p].takeable = some c ∧ c.parts = none
        ∧ parseCommand c.bytes = some k ∧ f k = some act
        ∧ s.takeCommand p f = ((act s).1).updPort p (Port.answer (act s).2) := by
  unfold State.takeCommand
  split
  · rename_i hr
    split
    · exact .inl rfl
    · rename_i act h
      right
      simp only [Option.bind_eq_some_iff] at h
      obtain ⟨k, ⟨c, hc, hk⟩, hf⟩ := h
      split at hk
      · rename_i hp
        exact ⟨c, k, act, hr, hc, by simpa using hp, hk, hf, rfl⟩
      · cases hk
  · exact .inl rfl

/-- The command a port holds is taken by an owner that knows it. -/
theorem State.takeCommand_taken {p : Fin 3} {f : Command → Option (State → State × Reply)} {s : State}
    {c : QueuedCommand} {k : Command} {act : State → State × Reply} (hr : s.running = true)
    (hc : s.ports[p].takeable = some c) (hp : c.parts = none) (hk : parseCommand c.bytes = some k)
    (hf : f k = some act) : s.takeCommand p f = ((act s).1).updPort p (Port.answer (act s).2) := by
  unfold State.takeCommand
  rw [if_pos hr, hc]
  simp [hp, hk, hf]

/-! ## The core tick -/

/-- A core tick of a running core closes the tick before it and adds the increment (01 R4). -/
theorem exec_coreTick (s : State) (h : s.running = true) : exec .coreTick s = .next s.closeTick.advanceTick := by
  show execCoreTick s = _
  unfold execCoreTick
  rw [if_pos h]

theorem State.rollsNext_eq (s : State) : s.rollsNext = s.closeTick.time.rolls := rfl

theorem exec_rollover (s : State) (h : s.running = true) : exec .rollover s = .next s.rollOver := by
  show execRollover s = _
  unfold execRollover
  rw [if_pos h]

/-- A rollover that waits is taken at its tick (01 R5). -/
theorem State.rollOver_waiting (s : State) (h : s.rolled = .waiting) : s.rollOver = s.takeRollover := by
  simp [State.rollOver, h]

/-- Where none waits, ROLLOVER is the core tick that rolls over, with its effects (01 R5). -/
theorem State.rollOver_next (s : State) (h : s.rolled ≠ .waiting) (hr : s.rollsNext = true) :
    s.rollOver = s.closeTick.advanceTick.takeRollover := by
  simp [State.rollOver, h, hr]

/-- Where none waits and the next tick does not roll over, nothing happens. -/
theorem State.rollOver_not (s : State) (h : s.rolled ≠ .waiting) (hr : s.rollsNext = false) : s.rollOver = s := by
  simp [State.rollOver, h, hr]

/-- A rollover is taken once: where none waits nothing happens. -/
theorem State.takeRollover_idle (s : State) (h : s.rolled ≠ .waiting) : s.takeRollover = s := by
  simp [State.takeRollover, h]

/-- The tick number and the bookkeeping of a tick leave the time as it is. -/
theorem State.advanceTick_eq (s : State) :
    s.advanceTick = State.count
      { (s.mapInterps fun x => { x with captured := 0 }).mapMarkers fun y => { y with rawSeen := 0 } with
          tick := s.tick + 1, mon := { s.mon with noTick := 0 } } := rfl

/-! ## Reading again after a change of the tick -/

/-- Where no fall of SECP is taken back, nothing is judged again (01 R19). -/
theorem State.rejudgeSecp_idle (s : State) (h : s.secpFell.any (SecpFall.isBack s.tick s.time.ns) = false) :
    s.rejudgeSecp = s := by
  simp [State.rejudgeSecp, h]

/-- Where a fall of SECP is taken back, SECP is high (01 R19). -/
theorem State.rejudgeSecp_back (s : State) (h : s.secpFell.any (SecpFall.isBack s.tick s.time.ns) = true) :
    s.rejudgeSecp = { s with secp := true, secpFell := none } := by
  simp [State.rejudgeSecp, h]

theorem SecpFall.isBack_iff (tick ns : Nat) (f : SecpFall) :
    f.isBack tick ns = true ↔ f.tick = tick ∧ ns < f.width := by
  simp [SecpFall.isBack]

/-- Where no fall of SECP is taken back, only what was read at the tick is read again (01 R8). -/
theorem State.reread_eq (s : State) (h : s.secpFell.any (SecpFall.isBack s.tick s.time.ns) = false) :
    s.reread = s.rereadAs s.reading :=
  State.rejudgeSecp_idle _ h

/-! ## Empty intakes -/

theorem State.offer_nobody (o : Offer) (s : State) (h : s.takers o = []) :
    s.offer o = s.mapPorts fun p q => if o.ports[p] then q.offered s.pool.next o.record.stamp else q := by
  simp [State.offer, h]

end Sys2Proof.Machine
end

