-- ==== Sys2Proof/WellFormed.lean ====
section
/-! DEFINITION. Which commands are well formed. Ports, lines, inputs, indexes and codes are bounded by
their types; what is left is the length of the bytes a line can have received when a frame ends. -/

namespace Sys2Proof

/-- A frame that ends at a code of the stream has fewer than 65,535 bytes, and one that ends at the
limit of the byte count has exactly as many (04 R78). -/
def Instr.wf : Instr → Bool
  | .blockLockLost _ bytes => bytes.length < 65535
  | .frameStart _ bytes => bytes.length < 65535
  | .frameEnd _ bytes _ => bytes.length < 65535
  | .byteCountLimit _ bytes => bytes.length == 65535
  | .attach _ | .detach _ | .hold _ | .release _ | .grantCredits _ | .setQuota _ | .setPacing _
  | .subscribe _ | .unsubscribe _ | .subscribeUnmapped _ | .subscribeMarkers _ | .queryTime _
  | .readStatus _ | .readChannel _ | .swapMarkers _ | .readMarkerLog _ | .resetPort _
  | .resetPortEnginePart _ | .resetPortMarkerPart _ | .resetPortPoolPart _ | .writeChannel _
  | .removeChannel _ | .setPairMode _ | .writeLineSettings _ | .writeMarkerSettings _
  | .writeDisciplineSettings _ | .labelNextPulse _ | .trimRate _ | .clearInvalid _ | .rollover
  | .secpFall | .edgeCapture _ | .conversionEnd _ _ | .coarseEdgeHandover _ | .internalEdge _
  | .sampleEnd _ _ | .calibrationTimerExpiry | .noPulse | .missedWindow | .blockLockGained _
  | .quietTimerExpiry _ | .arrivalTake _ | .gapDeadlineExpiry _ | .markerRawEdge _ _
  | .markerQualification _ | .recordOffer _ | .heartbeatTimerExpiry _ | .linkUp _ | .linkLoss _
  | .commandFrameReceived _ _ | .commandHandover _ | .linkFrameStart _ | .linkFrameEnd _
  | .holdTimerExpiry _ | .silenceTimerExpiry _ | .powerOn | .startupDelayEnd | .coreRelease _
  | .clockStop | .supplyDip | .supplyRecovery | .dipRecoveryEnd | .rstnAssertion | .rstnRelease _
  | .coreTick | .clockDropout | .clockGoodCountComplete => true

end Sys2Proof
end

