-- ==== Sys2Proof/Tests/Slice0.lean ====
section
/-! SUPPORT. Tests: the checks of WellFormed, the worked figures of the spec, and for each statement with
hypotheses a witness that meets them. A premise that only gives a value a name has no line of its own here. -/

namespace Sys2Proof.Tests

open Sys2Proof.Machine

/-! ## Well-formed commands (04 R78) -/

theorem test_wf_frameEnd : (Instr.frameEnd 0 (List.replicate 65534 0) .endCode).wf = true := by decide +kernel
theorem test_ill_frameEnd : (Instr.frameEnd 0 (List.replicate 65535 0) .endCode).wf = false := by decide +kernel
theorem test_ill_frameStart : (Instr.frameStart 0 (List.replicate 65535 0)).wf = false := by decide +kernel
theorem test_ill_blockLockLost : (Instr.blockLockLost 0 (List.replicate 65535 0)).wf = false := by decide +kernel
theorem test_wf_byteCountLimit : (Instr.byteCountLimit 0 (List.replicate 65535 0)).wf = true := by decide +kernel
theorem test_ill_byteCountLimit : (Instr.byteCountLimit 0 (List.replicate 65534 0)).wf = false := by decide +kernel

/-! ## Worked figures of the spec -/

/-- The table of 01 R2. -/
theorem test_increment_r2 :
    [increment 0 0, increment 0 1, increment 0 (-1), increment 12377 (-90), increment (-200000) 100000,
      increment 200000 50000, increment 200000 100000, increment (-200000) (-50000)]
    = [10737418240, 10737418251, 10737418229, 10737550171, 10736344498, 10740102595, 10740102595, 10734733885] := by
  decide

/-- 02, "settling to lock": a total correction of 1,974 ppb. -/
theorem test_increment_settled : increment 1924 50 = 10737439436 := by decide

/-- The table of 01 R4: four ticks from zero. -/
theorem test_ticks_r4 :
    let t1 := Timescale.reset.addTick
    let t2 := t1.addTick
    let t3 := t2.addTick
    let t4 := t3.addTick
    [(t1.ns, t1.frac), (t2.ns, t2.frac), (t3.ns, t3.frac), (t4.ns, t4.frac)]
      = [(2, 2147483648), (5, 0), (7, 2147483648), (10, 0)] := by decide

/-- A state of a running core with INVALID cleared. -/
def run : State := { State.reset with mon := { Monitor.reset with phase := .run, invalid := false, good := 4096 } }

/-- The same at a value of the timescale. -/
def at_ (sec ns frac : Nat) : State := { run with time := { Timescale.reset with sec := sec, ns := ns, frac := frac } }

/-- The table of 01 R6. -/
theorem test_readings_r6 :
    [(at_ 41 12 2147483648).reading, (at_ 41 12 2139095040).reading, (at_ 41 12 2130706432).reading,
      (at_ 41 12 4286578688).reading, (at_ 41 999999999 4290000000).reading].map (fun r => (r.sec, r.ns, r.sub))
    = [(41, 12, 128), (41, 12, 128), (41, 12, 127), (41, 13, 0), (42, 0, 0)] := by decide

/-- A reading with the conditions of 02 R26's figures. -/
def reading (sec ns sub : Nat) : Reading :=
  { sec := sec, ns := ns, sub := sub, epoch := 0, quality := .settling, invalid := false, suspect := false }

/-- A stamp of epoch 0. -/
def stamp (sec ns sub : Nat) : Stamp := assembleStamp (reading sec ns sub) 0 0 false

/-- 04, "a stamp across a second boundary" and "a clamped stamp". -/
theorem test_stamps_r81_r82 :
    let a := assembleStamp (reading 1750000043 12 40) 111 9000 false
    let b := assembleStamp (reading 1750000043 12 40) 320 9000 true
    let c := assembleStamp (reading 0 20 0) 320 9000 true
    [(a.sec, a.ns, a.sub, a.clamped), (b.sec, b.ns, b.sub, b.clamped), (c.sec, c.ns, c.sub, c.clamped)]
      = [(1750000042, 999999976, 145, false), (1750000042, 999999975, 192, false), (0, 0, 0, true)] := by decide

/-- The table of 02 R27. -/
theorem test_pulses_r27 :
    ([(180, 0), (0, 200), (999999900, 127), (999999900, 128), (499999999, 255), (500000000, 0)].map fun q =>
      let p := judgePulse (stamp 41 q.1 q.2)
      (p.e, p.ex, p.nominal))
    = [(180, 46080, 41), (1, 200, 41), (-100, -25473, 42), (-99, -25472, 42), (500000000, 127999999999, 41),
       (-500000000, -128000000000, 42)] := by decide

/-- The updates of 02, "settling to lock": error, rate after, slew after. -/
theorem test_updates_r29 :
    ([(640, 2000), (96, 1920), (-37, 1908), (12, 1913), (-100, 1911)].map fun q =>
      let t := State.update q.1 { run with disc := { Discipline.reset with rate := q.2 } }
      (t.disc.rate, t.disc.slew)) = [(1920, -320), (1908, -48), (1913, 19), (1911, -6), (1924, 50)] := by decide

/-- 03 R62: all samples in bin 0. -/
theorem test_offsets_r62 :
    let t : CalTable := (Vector.replicate 32 0).set 0 65536
    (fineOffset t 0, fineOffset t 1, fineOffset t 31) = (320, 639, 639) := by decide

/-- The table of 06 R117. -/
theorem test_lags_r117 :
    [lagOf (stamp 41 200512 64) (stamp 41 200000 0), lagOf (stamp 42 5 128) (stamp 41 999999990 0),
      lagOf (stamp 41 300004 0) (stamp 41 300010 0), lagOf (stamp 41 10000000 0) (stamp 41 0 0)]
    = [131136, 3968, -1536, 2147483647] := by decide

/-- The table of 06 R109. -/
theorem test_offsets_r109 :
    [seqOffset 1000 1000, seqOffset 1063 1000, seqOffset 1064 1000, seqOffset 5 4294967290, seqOffset 99 100,
      seqOffset 2147483648 0] = [0, 63, 64, 11, 4294967295, 2147483648] := by decide

/-- The check of the nine digits, which the generator, the reflection and the complement of 11 R190 give. -/
theorem test_crc_r190 :
    crc32 [0x31, 0x32, 0x33, 0x34, 0x35, 0x36, 0x37, 0x38, 0x39] = 0xCBF43926#32 := by decide +kernel

/-- 08 R153, step 1: rounded down to a multiple of 256, then clamped. -/
theorem test_quotas_r153 :
    [roundQuota 0, roundQuota 300, roundQuota 4096, roundQuota 65535] = [256, 256, 4096, 16384] := by decide

/-! ## Witnesses: commands of the ports -/

/-- Change port 0. -/
def port (f : Port → Port) (s : State) : State := { s with ports := s.ports.set 0 (f s.ports[0]) }

/-- A command as it stands in a queue. -/
def queued (cond : CommandCondition) (code : Nat) (args : List Byte) : QueuedCommand :=
  { bytes := byte code :: byte args.length :: args, cond := cond, parts := none, reply := [] }

/-- Port 0 in a state, with a command handed to its owner. -/
def given (st : PortState) (code : Nat) (args : List Byte) (s : State := run) : State :=
  port (fun q => { q with state := st, permit := true, cmds := [queued .handed code args] }) s

/-- Port 0 with a Reset Port of which some parts have been taken. -/
def resetting (x : ResetParts) (s : State := run) : State :=
  port (fun q => { q with cmds := [{ queued .handed 17 [] with parts := some x }] }) s

theorem test_witness_AttachStartsStreaming :
    ((given .detached 1 [255, 255]).Holds 0 (.attach 65535) ∧ (given .detached 1 [255, 255]).ports[0].state = .detached)
    ∧ (given .held 1 [0, 0]).Holds 0 (.attach 0) ∧ (given .held 1 [0, 0]).ports[0].state ≠ .detached := by decide

theorem test_witness_DetachHoldReleaseAndGrantCredits :
    ((given .held 2 []).Holds 0 .detach ∧ (given .held 2 []).ports[0].inService = true)
    ∧ ((given .detached 2 []).Holds 0 .detach ∧ (given .detached 2 []).ports[0].inService = false)
    ∧ ((given .streaming 3 []).Holds 0 .hold ∧ (given .streaming 3 []).ports[0].state = .streaming)
    ∧ ((given .held 3 []).Holds 0 .hold ∧ (given .held 3 []).ports[0].state ≠ .streaming)
    ∧ ((given .held 4 []).Holds 0 .release ∧ (given .held 4 []).ports[0].state = .held)
    ∧ ((given .streaming 4 []).Holds 0 .release ∧ (given .streaming 4 []).ports[0].state ≠ .held)
    ∧ (let s := port (fun q => { q with state := .held, holdTimer := some 0 }) run
       s.running = true ∧ s.ports[0].state = .held ∧ s.ports[0].holdTimer = some 0 ∧ 0 ≤ s.tick)
    ∧ ((given .streaming 5 [255, 255]).Holds 0 (.grantCredits 65535)
      ∧ (given .streaming 5 [255, 255]).ports[0].inService = true)
    ∧ (given .detached 5 [0, 1]).Holds 0 (.grantCredits 1) ∧ (given .detached 5 [0, 1]).ports[0].inService = false := by
  decide

/-- The commitments of the other two ports are 8,192, so 8,192 just fits and 8,448 does not. -/
theorem test_witness_SetQuotaKeepsToTheStore :
    ((given .streaming 6 [33, 0]).Holds 0 (.setQuota 8448)
      ∧ 16384 < max 8448 (given .streaming 6 [33, 0]).ports[0].queue.length
          + (given .streaming 6 [33, 0]).otherCommitments 0)
    ∧ ((given .streaming 6 [32, 0]).Holds 0 (.setQuota 8192)
      ∧ max 8192 (given .streaming 6 [32, 0]).ports[0].queue.length
          + (given .streaming 6 [32, 0]).otherCommitments 0 ≤ 16384)
    ∧ (resetting ⟨true, true, false⟩).running = true
    ∧ (resetting ⟨true, true, false⟩).ports[0].resetParts = some ⟨true, true, false⟩ := by decide

theorem test_witness_SetPacingReplacesTheSettings :
    (given .streaming 7 [11, 0, 0, 3]).Holds 0 (.setPacing 11 0 3)
    ∧ (given .streaming 7 [12, 0, 1, 3]).Holds 0 (.setPacing 12 1 3)
    ∧ (given .streaming 7 [0, 0, 1, 4]).Holds 0 (.setPacing 0 1 4) := by decide

theorem test_witness_ReadsChangeOnlyWhatTheySay :
    (given .streaming 12 []).Holds 0 .queryTime
    ∧ (given .streaming 14 [1, 255]).Holds 0 (.readChannel 511)
    ∧ (given .streaming 14 [2, 0]).Holds 0 (.readChannel 512)
    ∧ (given .streaming 16 [3]).Holds 0 (.readMarkerLog 3) ∧ (given .streaming 16 [4]).Holds 0 (.readMarkerLog 4)
    ∧ (given .streaming 13 []).Holds 0 .readStatus := by decide

theorem test_witness_ResetPortIsTakenInParts :
    (given .streaming 17 []).Holds 0 .resetPort
    ∧ (resetting ⟨false, true, true⟩).running = true
    ∧ (resetting ⟨false, true, true⟩).ports[0].resetParts = some ⟨false, true, true⟩
    ∧ (resetting ⟨true, false, true⟩).ports[0].resetParts = some ⟨true, false, true⟩ := by decide

/-! ## Witnesses: commands of the engine and of the marker unit -/

theorem test_witness_SubscriptionsAreTheCallingPorts :
    (given .streaming 8 [1, 255, 1, 255, 2]).Holds 0 (.subscribe 511 511 2)
    ∧ (given .streaming 9 [0, 0, 1, 255, 1]).Holds 0 (.unsubscribe 0 511 1)
    ∧ (given .streaming 8 [0, 1, 0, 0, 1]).Holds 0 (.subscribe 1 0 1)
    ∧ (given .streaming 8 [0, 0, 2, 0, 1]).Holds 0 (.subscribe 0 512 1)
    ∧ (given .streaming 9 [0, 0, 0, 0, 3]).Holds 0 (.unsubscribe 0 0 3)
    ∧ (given .streaming 9 [0, 0, 0, 0, 0]).Holds 0 (.unsubscribe 0 0 0)
    ∧ (given .streaming 11 [255]).Holds 0 (.subscribeUnmapped 255)
    ∧ (given .streaming 10 [15]).Holds 0 (.subscribeMarkers 15) := by decide

theorem test_witness_SwapMarkersEmptiesThePendingSet : (given .streaming 15 []).Holds 0 .swapMarkers := by decide

/-- A stored entry of pair P0 with a key. -/
def entry : Entry :=
  { scope := .pair 0, addr := 0xE0000001, port := 5000, fmt := .packet 0 .msbFirst, gapUs := 100
    levels := #v[.all, .none, .none], win := .empty, cnt := .zero }

/-- A running core with the entry at index 3. -/
def tabled : State := { run with channels := [(3, entry)] }

/-- Write Channel of an index and a port of the key: PAIR 0, E0000001, PACKET mode, gap timeout 0. -/
def writeArgs (hi lo kind num port mode : Byte) : List Byte :=
  [hi, lo, kind, num, 0xE0, 0, 0, 1, 0x13, port, mode, 0, 0, 0, 0, 0]

/-- Malformed at index 512; in conflict with another index's key or with a pair's mode; accepted over its own
index and beside it. -/
theorem test_witness_WriteChannelReplacesTheEntry :
    (given .streaming 32 (writeArgs 2 0 0 0 0x88 1) tabled).Holds 0 (.writeChannel 512 0 0 0xE0000001 5000 1 0 0 0 0)
    ∧ (given .streaming 32 (writeArgs 0 4 0 0 0x88 1) tabled).Holds 0 (.writeChannel 4 0 0 0xE0000001 5000 1 0 0 0 0)
    ∧ entry.hasKey (.pair 0) 0xE0000001 5000 = true
    ∧ (given .streaming 32 (writeArgs 0 4 1 7 0x88 1) tabled).Holds 0 (.writeChannel 4 1 7 0xE0000001 5000 1 0 0 0 0)
    ∧ tabled.scopeFits (.line 7) = false
    ∧ (given .streaming 32 (writeArgs 0 3 0 0 0x88 1) tabled).Holds 0 (.writeChannel 3 0 0 0xE0000001 5000 1 0 0 0 0)
    ∧ Scope.ofCodes 0 0 = some (.pair 0) ∧ Scope.ofCodes 0 4 = none ∧ Scope.ofCodes 1 7 = some (.line 7)
    ∧ SeqFormat.ofCodes 1 0 0 0 = some (.packet 0 .msbFirst) ∧ SeqFormat.ofCodes 3 0 0 0 = none
    ∧ tabled.scopeFits (.pair 0) = true ∧ entry.hasKey (.pair 0) 0xE0000001 5001 = false := by decide

theorem test_witness_RemoveChannelAndSetPairMode :
    (given .streaming 33 [1, 255] tabled).Holds 0 (.removeChannel 511)
    ∧ (given .streaming 33 [2, 0] tabled).Holds 0 (.removeChannel 512)
    ∧ (given .streaming 34 [4, 0] tabled).Holds 0 (.setPairMode 4 0)
    ∧ (given .streaming 34 [3, 2] tabled).Holds 0 (.setPairMode 3 2)
    ∧ (given .streaming 34 [0, 1] tabled).Holds 0 (.setPairMode 0 1) ∧ orphanedBy 0 .independent entry = true
    ∧ (given .streaming 34 [3, 1] tabled).Holds 0 (.setPairMode 3 1) ∧ orphanedBy 3 .independent entry = false
    ∧ PairMode.ofCode 1 = some .independent := by decide

/-! ## Witnesses: shared settings -/

theorem test_witness_LineAndMarkerSettingsAreReplaced :
    (given .streaming 35 [8, 1, 0, 0, 0, 1]).Holds 0 (.writeLineSettings 8 1 0 1)
    ∧ (given .streaming 35 [7, 2, 0, 0, 0, 1]).Holds 0 (.writeLineSettings 7 2 0 1)
    ∧ (given .streaming 35 [7, 1, 255, 255, 255, 255]).Holds 0 (.writeLineSettings 7 1 65535 65535)
    ∧ (given .streaming 36 [4, 0, 0, 0, 0]).Holds 0 (.writeMarkerSettings 4 0 0 0)
    ∧ (given .streaming 36 [3, 4, 0, 0, 0]).Holds 0 (.writeMarkerSettings 3 4 0 0)
    ∧ (given .streaming 36 [3, 3, 4, 0, 0]).Holds 0 (.writeMarkerSettings 3 3 4 0)
    ∧ (given .streaming 36 [3, 3, 3, 255, 255]).Holds 0 (.writeMarkerSettings 3 3 3 65535)
    ∧ EdgeSelect.ofCode 3 = some .both := by decide

/-- Numbers outside their ranges with codes at the end of theirs; and a code that names no value. -/
theorem test_witness_WriteDisciplineSettingsReplacesTheRecord :
    (given .streaming 37 [0, 0, 0, 0, 8, 7, 3, 3, 17, 1, 3, 3, 3, 3, 3, 1]).Holds 0
      (.writeDisciplineSettings 0 8 7 3 3 17 1 3 3 3 3 3 1)
    ∧ LockoSource.ofCode 3 = some .lineNotLive ∧ Polarity.ofCode 1 = some .activeLow
    ∧ (given .streaming 37 [0, 0, 0, 0, 8, 7, 3, 3, 17, 1, 3, 3, 3, 3, 3, 2]).Holds 0
      (.writeDisciplineSettings 0 8 7 3 3 17 1 3 3 3 3 3 2)
    ∧ (let s := given .streaming 37 [0, 0, 0, 0, 8, 7, 3, 3, 17, 1, 3, 3, 3, 3, 3, 1]
         { run with secpFell := some { tick := 0, width := 0 } }
       s.Holds 0 (.writeDisciplineSettings 0 8 7 3 3 17 1 3 3 3 3 3 1) ∧ s.secp = false
         ∧ ∀ f ∈ s.secpFell, f.tick = s.tick → f.width ≤ s.time.ns) := by decide

theorem test_witness_LabelNextPulseAndTrimRate :
    (let s := given .streaming 38 [0, 0, 1, 0, 0, 0, 0, 0]
     (s.Holds 0 (.labelNextPulse (2 ^ 40)) ∧ s.mon.invalid = false)
     ∧ (let t := s.updMon fun m => { m with invalid := true }
        t.Holds 0 (.labelNextPulse (2 ^ 40)) ∧ t.mon.invalid = true))
    ∧ (let s := given .streaming 39 [255, 252, 242, 191]
       (s.Holds 0 (.trimRate (-200001)) ∧ s.disc.state = .unset)
       ∧ (let t := s.updDisc fun d => { d with state := .locked }
          t.Holds 0 (.trimRate (-200001)) ∧ t.disc.state = .locked)) := by decide

theorem test_witness_ClearInvalidWaitsForTheClock :
    let s := given .streaming 40 []
    (s.Holds 0 .clearInvalid ∧ s.mon.good = 4096 ∧ s.mon.invalid = false)
    ∧ (let t := s.updMon fun m => { m with invalid := true }
       t.Holds 0 .clearInvalid ∧ t.mon.good = 4096 ∧ t.mon.invalid = true)
    ∧ (let t := s.updMon fun m => { m with good := 4095 }
       t.Holds 0 .clearInvalid ∧ t.mon.good ≠ 4096) := by decide

/-! ## Witnesses: the link -/

/-- Port 0 DETACHED with a WAITING command and without the permit. -/
def waiting (code : Nat) (args : List Byte) : State :=
  port (fun q => { q with state := .detached, cmds := [queued .waiting code args] }) run

/-- At the hand-over a command without a form, one that needs a permit, and one that does not; command frames: Detach
with its check, one with a wrong check, and Detach at a full queue. -/
theorem test_witness_CommandFramesAndHandovers :
    ((waiting 41 []).running = true ∧ (waiting 41 []).ports[0].state ≠ .down
      ∧ findCond .handed (waiting 41 []).ports[0].cmds = none
      ∧ findCond .waiting (waiting 41 []).ports[0].cmds = some (queued .waiting 41 [])
      ∧ parseCommand (queued .waiting 41 []).bytes = none)
    ∧ (findCond .waiting (waiting 40 []).ports[0].cmds = some (queued .waiting 40 [])
      ∧ parseCommand (queued .waiting 40 []).bytes = some .clearInvalid ∧ Command.clearInvalid.needsPermit = true
      ∧ (waiting 40 []).ports[0].permit = false)
    ∧ (findCond .waiting (waiting 17 []).ports[0].cmds = some (queued .waiting 17 [])
      ∧ parseCommand (queued .waiting 17 []).bytes = some .resetPort ∧ Command.resetPort.needsPermit = false)
    ∧ ((waiting 2 []).ports[0].cmds.length < 4 ∧ 6 ≤ ([2, 0] ++ crcBytes [2, 0]).length
      ∧ crcGood ([2, 0] ++ crcBytes [2, 0]) = true ∧ crcGood [2, 0, 0, 0, 0, 0] = false)
    ∧ (let s := port (fun q => { q with state := .detached, cmds := List.replicate 4 (queued .waiting 2 []) }) run
       s.running = true ∧ 4 ≤ s.ports[0].cmds.length ∧ s.ports[0].state ≠ .down) := by decide +kernel

/-- Replies: with a command left over, and to the HANDED command behind an ANSWERED one; the longest, of 341 bytes, in
11 items. -/
theorem test_witness_CommandFramesAndHandovers_replies :
    (let c := (queued .handed 2 []).answered (.bare .done)
     let q : Port := { Port.reset with cmds := [c, queued .handed 13 []] }
     q.orphans = [] ∧ q.cmds = [c] ++ queued .handed 13 [] :: [] ∧ (∀ b ∈ [c], b.cond ≠ .handed)
       ∧ (queued .handed 13 []).cond = .handed)
    ∧ (let q : Port := { Port.reset with orphans := [queued .handed 2 []] }
       q.orphans = queued .handed 2 [] :: [])
    ∧ max 1 ((4 + 341 + 31) / 32) = 11 := by decide

theorem test_witness_LinksFrameEndsAndPortTimers :
    (run.running = true ∧ run.rstnAsserted = false ∧ run.ports[0].state = .down)
    ∧ ((waiting 2 []).running = true ∧ (waiting 2 []).ports[0].state ≠ .down)
    ∧ (let s := (waiting 2 []).updMon fun m => { m with phase := .stopped }
       s.running = false ∧ s.ports[0].state ≠ .down)
    ∧ (let s := port (fun q => { q with
         state := .streaming, tx := some { items := [], frame := [] }, hbTimer := some 0, silenceTimer := some 0 }) run
       s.running = true ∧ s.ports[0].tx = some { items := [], frame := [] } ∧ s.ports[0].hbTimer = some 0
         ∧ s.ports[0].state = .streaming ∧ s.ports[0].silenceTimer = some 0 ∧ 0 ≤ s.tick) := by decide

/-- Port 0 STREAMING with one credit, a reply that waits and a pending notice: both are taken. -/
def sending : State :=
  port (fun q => { q with
    state := .streaming, credits := 1
    cmds := [(queued .handed 2 []).answered (.bare .done)]
    notices := [{ body := .invalid none, repeats := 1 }] }) run

theorem test_witness_LinkFramesTakeEligibleItems :
    sending.running = true ∧ sending.ports[0].state ≠ .down ∧ sending.ports[0].tx = none ∧ sending.ports[0].RepliesOk
    ∧ (sending.takeItems 0 8).1.map Item.type = [1, 18]
    ∧ (List.replicate 8 (Item.reply (List.replicate 32 0))).length ≤ 8
    ∧ (List.replicate 4 (0 : Byte)).length = 4 ∧ (List.replicate 16 (0 : Byte)).length = 16 := by decide

/-- The frame of a port with one item: its header of 11.1, and the worked layout of a marker record (11.2): input 2,
FALLING, count 258, then its stamp. -/
theorem test_layout_r190 :
    let r : MarkerRecord := { input := 2, dir := .falling, stamp := stamp 41 180 64, count := 258 }
    (linkFrame 1 [.record (.marker r)]).take 30
      = [1, 1, 0, 48, 6, 0, 0, 0, 0, 0, 0, 0] ++ [2, 1, 0, 0, 1, 2] ++ [0, 0, 0, 0, 41, 0, 0, 0, 180, 64, 0, 2] := by
  decide +kernel

/-- The last item of a reply; then, with none, a notice, a heartbeat, a record, and no credit. -/
theorem test_witness_ItemsComeInTheirOrder :
    (sending.ports[0].cmds = [(queued .handed 2 []).answered (.bare .done)]
      ∧ ((queued .handed 2 []).answered (.bare .done)).cond = .answered
      ∧ ((queued .handed 2 []).answered (.bare .done)).reply.length = 1)
    ∧ (let s := port (fun q => { q with cmds := [] }) sending
       (∀ c ∈ s.ports[0].cmds.head?, c.cond ≠ .answered) ∧ s.ports[0].state = .streaming ∧ 0 < s.ports[0].credits
         ∧ s.ports[0].notices = [{ body := .invalid none, repeats := 1 }])
    ∧ (let s := port (fun q => { q with cmds := [], notices := [], hbPending := true }) sending
       s.ports[0].state = .streaming ∧ 0 < s.ports[0].credits ∧ s.ports[0].notices = []
         ∧ s.ports[0].hbPending = true)
    ∧ (let r : UnmappedRecord :=
         { line := 0, stamp := stamp 41 0 0, length := 64, verdict := .none, key := none, cause := .noChannel }
       let e : PoolEntry := { id := 6, record := .unmapped r, refs := 1 }
       let s := port (fun q => { q with cmds := [], notices := [], queue := [6] })
         { sending with pool := { sending.pool with entries := [e] } }
       s.ports[0].state = .streaming ∧ 0 < s.ports[0].credits ∧ s.ports[0].notices = [] ∧ s.ports[0].hbPending = false
         ∧ s.ports[0].queue = e.id :: [] ∧ e ∈ s.pool.entries ∧ (s.pool.entries.map PoolEntry.id).Nodup)
    ∧ (let s := port (fun q => { q with cmds := [], credits := 0 }) sending
       (∀ c ∈ s.ports[0].cmds.head?, c.cond ≠ .answered) ∧ s.ports[0].credits = 0)
    ∧ sending.takeItem 0 ≠ none ∧ run.takeItem 0 = none := by decide

/-! ## Witnesses: the timescale -/

/-- A state whose rollover waits, with a controller. -/
def rolling (d : Discipline) : State := { at_ 41 0 0 with disc := d, rolled := .waiting }

theorem test_witness_RolloverEffectsAndSecp :
    (let s := at_ 41 999999997 2147483648
     s.running = true ∧ s.rolled ≠ .waiting ∧ s.rollsNext = true ∧ (at_ 41 0 0).rollsNext = false)
    ∧ ((rolling .reset).running = true ∧ (rolling .reset).rolled = .waiting ∧ (rolling .reset).disc.label = none)
    ∧ (rolling { Discipline.reset with label := some { value := 7, rollovers := 0 } }).disc.label
        = some { value := 7, rollovers := 0 }
    ∧ (rolling { Discipline.reset with label := some { value := 7, rollovers := 1 } }).disc.label
        = some { value := 7, rollovers := 1 }
    ∧ (let s := { at_ 41 100000000 0 with secp := true, tick := 1 }
       s.running = true ∧ s.secp = true ∧ s.secpRise < s.tick ∧ s.disc.settings.secpNs ≤ s.time.ns)
    ∧ ((at_ 41 99999999 0).time.ns < (at_ 41 99999999 0).disc.settings.secpNs ∧ run.secp = false
      ∧ run.tick ≤ run.secpRise)
    ∧ (let s := { at_ 41 99999999 0 with secpFell := some { tick := 0, width := 100000000 } }
       s.secpBack s)
    ∧ (let s := { at_ 41 100000000 0 with secpFell := some { tick := 0, width := 100000000 } }
       ¬ s.secpBack s) := by decide +kernel

/-- 01 R19: SECP, fallen at this tick, is high again once a step of the tick takes the value below the width. -/
theorem test_secp_r19 :
    let s := { at_ 41 100000000 0 with secp := true, tick := 1 }
    let t := { s with secp := false, secpFell := some { tick := 1, width := 100000000 } }
    exec .secpFall s = .next t ∧ (State.correct 256 t).reread.secp = true := ⟨rfl, by decide +kernel⟩

/-- 01 R20: SECP, fallen at this tick by the width of 1 µs, stays low under the new width of 100 ms. -/
theorem test_secp_r20 :
    let s := { at_ 41 1000 0 with secp := false, secpFell := some { tick := 0, width := 1000 } }
    (s.setDiscipline { s.disc.settings with secpWidth := 3 }).secp = false := by decide +kernel

/-- One unit below the end of the last second, so that the change of the increment is felt at the maximum. -/
theorem test_witness_ATickAddsTheNewIncrement :
    let s := at_ Config.maxSec 999999999 4294967295
    s.time.within < Config.unitsPerSec ∧ s.time.sec ≤ 2 ^ 40 - 1 ∧ s.time.inc ≤ Config.unitsPerSec
      ∧ increment 200000 50000 ≤ Config.unitsPerSec ∧ s.rolled ≠ .early := by decide

/-- The clauses at their ends: the greatest error on both sides, below zero, and past the last second; a label that
would go below zero, and one that just does not. -/
theorem test_witness_CorrectionsMoveTheValue :
    let v (s : State) := s.time.reincrement (increment s.disc.rate 0)
    ((128000000000 : Int).natAbs ≤ 128000000000
      ∧ (v (at_ 41 0 0)).within < Config.unitsPerSec ∧ (v (at_ 41 0 0)).sec ≤ 2 ^ 40 - 1
      ∧ 0 ≤ (((v (at_ 41 0 0)).sec * Config.unitsPerSec + (v (at_ 41 0 0)).within : Nat) : Int)
          - 128000000000 * 2 ^ 24)
    ∧ (((v (at_ 0 499999999 0)).sec * Config.unitsPerSec + (v (at_ 0 499999999 0)).within : Nat) : Int)
          - 128000000000 * 2 ^ 24 < 0
    ∧ 2 ^ 40 * Config.unitsPerSec
        ≤ (((v (at_ Config.maxSec 500000000 0)).sec * Config.unitsPerSec
            + (v (at_ Config.maxSec 500000000 0)).within : Nat) : Int) - -128000000000 * 2 ^ 24
    ∧ (at_ 41 0 0).time.sec + 0 < 42 ∧ 41 ≤ (at_ 41 0 0).time.sec + 0 := by decide

theorem test_witness_ReadingsAreRounded :
    let s := at_ 41 999999999 4286578688
    s.time.ns < 1000000000 ∧ s.time.frac < 2 ^ 32 ∧ s.time.sec ≤ 2 ^ 40 - 1
      ∧ (2 * s.time.frac + 2 ^ 24) / 2 ^ 25 = 256
      ∧ s.time.sec * Config.unitsPerSec + s.time.within
          ≤ (at_ 42 0 0).time.sec * Config.unitsPerSec + (at_ 42 0 0).time.within := by decide

/-- A TIMEOUT record read at this tick: LIVE, handed over and not yet offered, and in a frame on its way. -/
def gapRead : GapRecord :=
  { index := 3, cause := .timeout, first := 7, count := some 2, baseAfter := 5, stamp := (at_ 41 0 0).now }

theorem test_witness_ReadingsFollowTheTick :
    let x : Transmission := { items := [.record (.gap gapRead)], frame := linkFrame 0 [.record (.gap gapRead)] }
    let o : Offer := { record := .gap gapRead, ports := #v[true, false, false] }
    let e : PoolEntry := { id := 0, record := .gap gapRead, refs := 1 }
    let s := State.updPort 0 (fun q => { q with tx := some x })
      { at_ 41 0 0 with pool := { State.reset.pool with entries := [e], fromEngine := [o] } }
    e ∈ s.pool.entries ∧ e.record = .gap gapRead ∧ o ∈ s.pool.fromEngine ∧ o.record = .gap gapRead
      ∧ gapRead.stamp.readAt = some s.tick ∧ s.ports[0].tx = some x ∧ x.frame = linkFrame 0 x.items :=
  ⟨by simp [State.updPort], rfl, by simp [State.updPort], rfl, rfl, rfl, rfl⟩

/-- An enabled line without frames. -/
def quietLine : Line :=
  { Line.reset with settings := { enable := true, comp := 0, quietMs := 1 }, state := .quiet }

/-- A source for each clause, with the condition met and not met. -/
theorem test_witness_LockoReportsItsCondition :
    State.reset.running = false ∧ run.running = true ∧ run.disc.settings.lockoSource = .locked
    ∧ (run.updDisc fun d => { d with
        state := .holdover
        settings := { d.settings with lockoSource := .lockedOrHoldover, polarity := .activeLow } }).locko = false
    ∧ (run.updDisc fun d => { d with settings := { d.settings with lockoSource := .invalid } }).locko = false
    ∧ (State.updDisc (fun d => { d with settings := { d.settings with lockoSource := .lineNotLive } })
        ({ run with lines := run.lines.set 7 quietLine } : State)).locko = true := by decide

/-! ## Witnesses: the interpolators -/

/-- A running core at tick 7 with the interpolator of an input. -/
def withInterp (i : Input) (x : Interp) : State :=
  { run with tick := 7, interps := run.interps.set (Machine.Input.index i) x }

/-- An edge captured at tick 0. -/
def cap (sec ns sub : Nat) : Capture := { edge := 0, tick := 0, reading := reading sec ns sub }

/-- An edge captured at tick 7. -/
def late : Capture := { cap 41 181 64 with tick := 7 }

/-- Nothing in flight; the end tick of a conversion with 13 coarse edges waiting; a full list with a due edge, and a
full list without one. -/
theorem test_witness_EdgesAreCapturedAndHandedOver :
    (run.running = true ∧ (run.interp .ref).captured < 2 ∧ (run.interp .ref).conv = none
      ∧ (run.interp .ref).lastEnd ≠ some run.tick ∧ (run.interp .ref).presented = []
      ∧ (run.interp .ref).coarse.length < 14)
    ∧ (let s := withInterp (.line 0)
         { Interp.reset with presented := [4, 5], captured := 1, lastEnd := some 7, coarse := List.replicate 13 late }
       (s.interp (.line 0)).captured < 2 ∧ (s.interp (.line 0)).presented = 4 :: [5]
         ∧ (s.interp (.line 0)).coarse.length < 14 ∧ (s.interp (.line 0)).lastEnd = some s.tick)
    ∧ (let s := withInterp (.line 0)
         { Interp.reset with presented := [4], coarse := cap 41 181 64 :: List.replicate 13 late }
       (s.interp (.line 0)).presented = 4 :: [] ∧ 14 ≤ (s.interp (.line 0)).coarse.length
         ∧ ((s.dueEdges (.line 0)).interp (.line 0)).coarse.length < 14)
    ∧ (let s := withInterp (.line 0) { Interp.reset with presented := [4], coarse := List.replicate 14 late }
       14 ≤ ((s.dueEdges (.line 0)).interp (.line 0)).coarse.length)
    ∧ (let s := withInterp .ref { Interp.reset with conv := some { cap := cap 41 181 64, table := none } }
       s.running = true ∧ (s.interp .ref).conv = some { cap := cap 41 181 64, table := none }
         ∧ (cap 41 181 64).tick + 7 ≤ s.tick)
    ∧ (let s := withInterp .ref
         { Interp.reset with conv := some { cap := late, table := none }, coarse := [cap 41 181 64] }
       s.running = true ∧ (s.interp .ref).coarse = [cap 41 181 64] ∧ (cap 41 181 64).tick + 7 ≤ s.tick
         ∧ ∀ v ∈ (s.interp .ref).conv, (cap 41 181 64).tick < v.cap.tick) := by decide

/-- A reading just large enough, one unit short with a second to borrow from, and one short at second 0. -/
theorem test_witness_StampsSubtractTheDelay :
    ((reading 41 258 126).Ok ∧ 639 + 65535 ≤ (reading 41 258 126).ns * 256 + (reading 41 258 126).sub)
    ∧ ((reading 1 258 125).ns * 256 + (reading 1 258 125).sub < 639 + 65535 ∧ 1 ≤ (reading 1 258 125).sec)
    ∧ ((reading 0 258 125).ns * 256 + (reading 0 258 125).sub < 639 + 65535 ∧ (reading 0 258 125).sec = 0) := by decide

theorem test_witness_FineOffsetsNeverFall : (Vector.replicate 32 2048 : CalTable).toList.sum = 65536 := by decide

/-- A collection one sample short of complete. -/
def almost : Collection := { bins := (Vector.replicate 32 0).set 0 65535, samples := 65535 }

theorem test_witness_CalibrationCollectsSamples :
    (let s := withInterp .ref { Interp.reset with collection := some almost }
     s.running = true ∧ (s.interp .ref).conv = none ∧ (s.interp .ref).sample = none
       ∧ (s.interp .ref).collection ≠ none)
    ∧ (run.interp .ref).collection = none
    ∧ (let s := withInterp .ref { Interp.reset with sample := some 7, collection := some almost }
       (s.interp .ref).sample = some 7 ∧ 7 ≤ s.tick ∧ (s.interp .ref).collection = some almost
         ∧ 65536 ≤ almost.samples + 1)
    ∧ (let s := withInterp .ref { Interp.reset with sample := some 7, collection := some .start }
       (s.interp .ref).sample = some 7 ∧ (s.interp .ref).collection = some .start
         ∧ Collection.start.samples + 1 < 65536)
    ∧ ({ run with calExpiry := some 0 } : State).calExpiry = some 0 := by decide

/-! ## Witnesses: the discipline controller -/

theorem test_witness_PulseErrorsAndUpdates :
    (stamp 41 499999999 255).ns < 500000000 ∧ 500000000 ≤ (stamp 41 500000000 0).ns := by decide

/-- A pulse that is being converted, with a controller. Its stamp is 1.25 ns before its reading. -/
def pulsing (d : Discipline) (c : Capture) : State :=
  { withInterp .ref { Interp.reset with conv := some { cap := c, table := none } } with disc := d }

/-- The stamp of 41 s, 180 ns. -/
def pulse180 : Stamp := assembleStamp (cap 41 181 64).reading 320 0 true

/-- A controller in a state with a reference instant one second before the pulse. -/
def steady (q : Quality) : Discipline :=
  { Discipline.reset with state := q, instant := some { sec := 40, ns := 0, sub := 0, epoch := 0 } }

/-- What `pulsing` brings to the controller, and the state in which it is taken. -/
def pulse (sec ns sub : Nat) : Pulse := judgePulse (assembleStamp (reading sec ns sub) 320 0 true)
def taking (d : Discipline) (sec ns sub : Nat) : State :=
  (pulsing d (cap sec ns sub)).updInterp .ref fun x => { x with conv := none, lastEnd := some 7 }

theorem test_pulse_ends (d : Discipline) (sec ns sub : Nat) :
    (pulsing d (cap sec ns sub)).PulseEnds 0 (pulse sec ns sub) (taking d sec ns sub) :=
  ⟨rfl, _, rfl, Nat.le_refl 7, rfl, rfl⟩

/-- A controller in a state with its reference instant at the second of the pulse. -/
def again (q : Quality) : Discipline := { steady q with instant := some { sec := 41, ns := 0, sub := 0, epoch := 0 } }

/-- Another epoch; UNSET; in FREERUN a double pulse, an error of 10 µs, which updates, and one of 10,001 ns, which
steps. -/
theorem test_witness_PulsesWithoutLock :
    (let u := { taking .reset 41 181 64 with time := { Timescale.reset with epoch := 1 } }
     (pulse 41 181 64).stamp.epoch ≠ u.time.epoch)
    ∧ ((pulse 41 181 64).stamp.epoch = (taking .reset 41 181 64).time.epoch
      ∧ (taking .reset 41 181 64).disc.state = .unset ∧ (taking .reset 41 181 64).disc.label = none)
    ∧ (let u := taking (again .freerun) 41 181 64
       u.disc.state = .freerun ∧ u.isDoublePulse (pulse 41 181 64).stamp = true)
    ∧ (let u := taking (steady .freerun) 41 10001 64
       u.disc.state = .freerun ∧ u.isDoublePulse (pulse 41 10001 64).stamp = false ∧ u.disc.label = none
         ∧ (pulse 41 10001 64).e.natAbs = u.disc.settings.stepNs)
    ∧ (let u := taking (steady .freerun) 41 10002 64
       u.isDoublePulse (pulse 41 10002 64).stamp = false
         ∧ (pulse 41 10002 64).e.natAbs = u.disc.settings.stepNs + 1) := by decide

/-- A double pulse, first and second in a row; 100 ns, at the lock threshold, with a count that locks and one short of
it; 101 ns; and 10,001 ns. -/
theorem test_witness_PulsesInSettling :
    (let u := taking (again .settling) 41 181 64
     (pulse 41 181 64).stamp.epoch = u.time.epoch ∧ u.disc.state = .settling
       ∧ u.isDoublePulse (pulse 41 181 64).stamp = true ∧ u.disc.faults = 0)
    ∧ (taking { again .settling with faults := 1 } 41 181 64).isDoublePulse (pulse 41 181 64).stamp = true
    ∧ (let u := taking { steady .settling with good := 3 } 41 101 64
       u.isDoublePulse (pulse 41 101 64).stamp = false ∧ u.disc.label = none
         ∧ (pulse 41 101 64).e.natAbs ≤ u.disc.settings.stepNs
         ∧ (pulse 41 101 64).e.natAbs = u.disc.settings.lockNs ∧ u.disc.settings.lockCount = u.disc.good + 1)
    ∧ (let u := taking { steady .settling with good := 2 } 41 101 64
       u.disc.good + 1 < u.disc.settings.lockCount)
    ∧ (let u := taking (steady .settling) 41 102 64
       u.isDoublePulse (pulse 41 102 64).stamp = false ∧ u.disc.settings.lockNs + 1 = (pulse 41 102 64).e.natAbs
         ∧ (pulse 41 102 64).e.natAbs ≤ u.disc.settings.stepNs)
    ∧ (let u := taking (steady .settling) 41 10002 64
       u.isDoublePulse (pulse 41 10002 64).stamp = false
         ∧ u.disc.settings.stepNs < (pulse 41 10002 64).e.natAbs) := by decide

/-- A controller that expects second 41 in the window of `m` times W, 10 µs. -/
def windowed (q : Quality) (m : Nat) : Discipline := (steady q).expect 41 m 0

/-- A label pending in each state. -/
theorem test_witness_LabelsAtPulses :
    let l : PendingLabel := { value := 2 ^ 40 - 1, rollovers := 1 }
    (let u := taking { Discipline.reset with label := some l } 41 181 64
     (pulse 41 181 64).stamp.epoch = u.time.epoch ∧ u.disc.label = some l ∧ u.disc.state = .unset)
    ∧ (let u := taking { steady .freerun with label := some l } 41 181 64
       u.disc.state = .freerun ∧ u.isDoublePulse (pulse 41 181 64).stamp = false)
    ∧ (let u := taking { steady .settling with label := some l } 41 181 64
       u.disc.state = .settling ∧ u.isDoublePulse (pulse 41 181 64).stamp = false)
    ∧ (let u := taking { windowed .locked 1 with label := some l, suspect := true } 41 181 64
       u.disc.state = .locked ∧ u.insideWindow (pulse 41 181 64).stamp = true)
    ∧ (let u := taking { windowed .holdover 4 with label := some l } 41 181 64
       u.disc.state = .holdover ∧ u.insideWindow (pulse 41 181 64).stamp = true) := by decide

/-- A controller with the step threshold at 1 µs. -/
def fine (d : Discipline) : Discipline := { d with settings := { d.settings with stepThreshold := 0 } }

/-- In LOCKED: 100 ns, at the lock threshold, 180 ns, and 1,001 ns beyond the step threshold, with and without the
suspect flag; the close bound, 1/256 ns beyond it, with and without the flag. In HOLDOVER one pulse short of
reacquisition, the last one within and beyond the step threshold, and one outside the window. -/
theorem test_witness_PulsesAreJudgedByTheWindow :
    (let u := taking (windowed .locked 1) 41 101 64
     (pulse 41 101 64).stamp.epoch = u.time.epoch ∧ u.disc.state = .locked ∧ u.disc.label = none
       ∧ u.insideWindow (pulse 41 101 64).stamp = true ∧ (pulse 41 101 64).e.natAbs ≤ u.disc.settings.stepNs
       ∧ (pulse 41 101 64).e.natAbs = u.disc.settings.lockNs)
    ∧ (let u := taking (windowed .locked 1) 41 181 64
       u.insideWindow (pulse 41 181 64).stamp = true ∧ (pulse 41 181 64).e.natAbs ≤ u.disc.settings.stepNs
         ∧ u.disc.settings.lockNs < (pulse 41 181 64).e.natAbs)
    ∧ (let u := taking (fine (windowed .locked 1)) 41 1002 64
       u.insideWindow (pulse 41 1002 64).stamp = true ∧ u.disc.settings.stepNs + 1 = (pulse 41 1002 64).e.natAbs
         ∧ u.disc.suspect = false)
    ∧ (let u := taking (fine { windowed .locked 1 with suspect := true }) 41 1002 64
       u.insideWindow (pulse 41 1002 64).stamp = true ∧ u.disc.settings.stepNs < (pulse 41 1002 64).e.natAbs
         ∧ u.disc.suspect = true)
    ∧ (taking (windowed .locked 1) 41 10001 64).insideWindow (pulse 41 10001 64).stamp = true
    ∧ (taking (windowed .locked 1) 41 10001 65).insideWindow (pulse 41 10001 65).stamp = false
    ∧ (let u := taking { windowed .locked 1 with suspect := true } 41 10001 65
       u.disc.state = .locked ∧ u.disc.suspect = true ∧ u.insideWindow (pulse 41 10001 65).stamp = false)
    ∧ (let u := taking { windowed .holdover 4 with reacquired := 2 } 41 181 64
       u.disc.state = .holdover ∧ u.insideWindow (pulse 41 181 64).stamp = true
         ∧ u.disc.reacquired + 1 < u.disc.settings.reacquireCount)
    ∧ (let u := taking { windowed .holdover 4 with reacquired := 3 } 41 10001 64
       u.insideWindow (pulse 41 10001 64).stamp = true ∧ u.disc.settings.reacquireCount = u.disc.reacquired + 1
         ∧ (pulse 41 10001 64).e.natAbs = u.disc.settings.stepNs)
    ∧ (let u := taking { windowed .holdover 4 with reacquired := 3 } 41 10002 64
       u.insideWindow (pulse 41 10002 64).stamp = true ∧ u.disc.settings.stepNs < (pulse 41 10002 64).e.natAbs)
    ∧ (taking (windowed .holdover 4) 41 40002 64).insideWindow (pulse 41 40002 64).stamp = false := by decide

/-- The silence deadline of 41 s, reached at 41 s. -/
def due : Deadline := { sec := 41, ns := 0, sub := 0, epoch := 0 }

theorem test_witness_MissingPulsesAreFaults :
    (let s := { at_ 41 0 0 with disc := { steady .settling with silence := some due } }
     s.running = true ∧ s.disc.silence = some due ∧ s.disc.state = .settling ∧ due.reached s.reading = true
       ∧ s.disc.faults = 0)
    ∧ due.reached (at_ 41 0 0).reading = true ∧ due.reached (at_ 40 999999999 4286578687).reading = false
    ∧ (let s := { at_ 41 10000 0 with disc := windowed .locked 1 }
       s.running = true ∧ s.disc.window = some (windowAround 41 10000 0)
         ∧ s.disc.expected = some { sec := 41, epoch := 0 } ∧ (windowAround 41 10000 0).closeAt.reached s.reading = true
         ∧ s.disc.state = .locked ∧ s.disc.suspect = false)
    ∧ (let s := { at_ 41 10000 0 with disc := { windowed .locked 1 with suspect := true } }
       s.disc.window = some (windowAround 41 10000 0) ∧ s.disc.expected = some { sec := 41, epoch := 0 }
         ∧ s.disc.state = .locked ∧ s.disc.suspect = true)
    ∧ (windowAround 41 10000 0).closeAt.reached (at_ 41 9999 0).reading = false
    ∧ (let s := { at_ 41 40000 0 with disc := windowed .holdover 4 }
       s.disc.window = some (windowAround 41 40000 0) ∧ (windowAround 41 40000 0).closeAt.reached s.reading = true
         ∧ s.disc.state = .holdover) := by decide

/-! ## Witnesses: the lines -/

/-- A running core with line 0. -/
def lined (x : Line) : State := { run with lines := run.lines.set 0 x }

/-- An enabled line in a state, with frames in progress. -/
def line (st : LineState) (frames : List Frame) : Line :=
  { Line.reset with
    settings := { enable := true, comp := 9000, quietMs := 1000 }
    state := st
    lock := st == .quiet || st == .live
    quiet := if st = .live then some 0 else none
    frames := frames }

/-- A frame that is open, with a stamp or without one. -/
def frame (st : Option Stamp) : Frame := { Frame.start 0 1 9000 with stamp := st }

/-- A frame that has ended TRUNCATED without a byte. -/
def ended : Frame := (frame none).endWith [] true

/-- A quiet timer one tick from its end; an open frame, behind one that waits for its stamp, with and without a
stamp. -/
theorem test_witness_LineStatesFollowTheLink :
    ((lined (line .dark [])).running = true ∧ (lined (line .dark [])).rstnAsserted = false
      ∧ (lined (line .dark [])).lines[0].state = .dark)
    ∧ ({ lined (line .dark []) with rstnAsserted := true } : State).running = true
    ∧ ((lined (line .quiet [ended])).lines[0].state = .quiet
      ∧ (lined (line .quiet [ended])).lines[0].frames.any Frame.isOpen = false)
    ∧ (lined (line .quiet [ended, frame none])).OpenLast 0 [ended] (frame none)
    ∧ (lined (line .live [ended, frame (some pulse180)])).OpenLast 0 [ended] (frame (some pulse180))
    ∧ (List.replicate 65534 (0 : Byte)).length < 65535
    ∧ ((lined (line .live [])).lines[0].state = .live ∧ (lined (line .live [])).lines[0].quiet = some 0
      ∧ 0 ≤ (lined (line .live [])).tick)
    ∧ (let s := lined { line .live [] with quiet := some 1 }
       ∀ n ∈ s.lines[0].quiet, s.tick < n)
    ∧ run.lines[0].state = .disabled := by decide +kernel

theorem test_witness_FrameStartOpensAFrame :
    (let s := lined (line .live [ended])
     s.running = true ∧ s.lines[0].state = .live ∧ s.lines[0].frames.any Frame.isOpen = false
       ∧ ∀ f ∈ s.lines[0].frames, f.captureTick ≠ s.tick)
    ∧ (let s := lined (line .quiet [ended, frame (some pulse180)])
       s.OpenLast 0 [ended] (frame (some pulse180)) ∧ (∀ f ∈ s.lines[0].frames, f.captureTick ≠ s.tick)
         ∧ (List.replicate 65534 (0 : Byte)).length < 65535)
    ∧ (let s := { lined (line .live [frame none]) with tick := 1 }
       frame none ∈ s.lines[0].frames ∧ (frame none).captureTick = s.tick)
    ∧ (lined (line .dark [])).lines[0].state = .dark ∧ run.lines[0].state = .disabled := by decide +kernel

/-- The frame of another edge. -/
def other : Frame := { frame none with edge := 1 }

/-- The ends of the byte counts; a hand-over to a frame between two others, ended or open; and to none of them. -/
theorem test_witness_FrameEndsAreHandedOff :
    (lined (line .quiet [ended, frame (some pulse180)])).OpenLast 0 [ended] (frame (some pulse180))
    ∧ (lined (line .live [frame none])).OpenLast 0 [] (frame none)
    ∧ (List.replicate 65534 (0 : Byte)).length < 65535 ∧ (List.replicate 65535 (0 : Byte)).length = 65535
    ∧ ((lined (line .live [ended])).lines[0].frames.any Frame.isOpen = false ∧ run.lines[0].state = .disabled
      ∧ (lined (line .dark [])).lines[0].state = .dark)
    ∧ ((lined (line .live [other, ended, { other with ended := some .runt }])).lines[0].frames
        = [other] ++ ended :: [{ other with ended := some .runt }]
      ∧ ended.edge = (cap 41 181 64).edge ∧ ended.stamp = none ∧ ended.ended = some .truncated
      ∧ (∀ b, b ∈ [other] ∨ b ∈ [{ other with ended := some .runt }] →
        b.edge ≠ (cap 41 181 64).edge ∧ (b.ended = none ∨ b.stamp = none)))
    ∧ ((frame none).edge = (cap 41 181 64).edge ∧ (frame none).stamp = none ∧ (frame none).ended = none)
    ∧ (∀ b ∈ (lined (line .live [other])).lines[0].frames,
        b.edge ≠ (cap 41 181 64).edge ∧ (b.ended = none ∨ b.stamp = none)) := by
  refine ⟨by decide +kernel, by decide +kernel, by decide +kernel, by decide +kernel, by decide +kernel, ?_, ?_, ?_⟩
  · refine ⟨rfl, rfl, rfl, rfl, ?_⟩
    rintro b (h | h) <;> simp only [List.mem_singleton] at h <;> subst h <;> decide
  · decide
  · decide

/-! ## Witnesses: the engine -/

/-- An arrival on line 0. -/
def arrival (p : Parse) : Arrival := { line := 0, stamp := pulse180, length := 64, verdict := .none, parse := p }

/-- The key of the stored entry. -/
def key : Key := { addr := 0xE0000001, port := 5000 }

/-- The window after a first arrival of sequence 1,000. -/
def based : Entry := { entry with win := baseWindow 0 pulse180 1000 1 }

/-- The window after 1,000 and 1,002, with a hole at 1,001 and a deadline armed at tick 5. -/
def holed : Entry := (Entry.takeSequenced 5 3 (arrival (.keyed key 4 [])) 1002 none based).1

/-- A core at tick 5, of 42 s, with that entry. -/
def holding : State := { at_ 42 0 0 with tick := 5, channels := [(3, holed)] }

/-- Without a key, with one that no entry holds, with one that an entry holds, and with one whose entry's deadline was
armed at this tick and is reached at it. -/
theorem test_witness_ArrivalsAreTaken :
    (let s := { tabled with arrivals := tabled.arrivals.set 0 [arrival (.unkeyed .notUdp)] }
     s.running = true ∧ s.arrivals[0] = arrival (.unkeyed .notUdp) :: [])
    ∧ tabled.findKey (tabled.scopeOf 0) { key with port := 5001 } = none
    ∧ (let a := arrival (.keyed key 4 [0, 0, 0, 9])
       let s := { tabled with arrivals := tabled.arrivals.set 0 [a] }
       s.arrivals[0] = a :: [] ∧ s.findKey (s.scopeOf 0) key = some (3, entry) ∧ entry.win.armedAt ≠ some s.tick)
    ∧ (holding.findKey (holding.scopeOf 0) key = some (3, holed) ∧ holed.win.armedAt = some holding.tick
      ∧ holed.win.deadline.any (fun d => d.reached holding.reading) = true)
    ∧ ((3 : Fin 4).val = (7 : Fin 8).val / 2 ∧ run.pairModes[3] = .paired)
    ∧ ({ run with pairModes := #v[.paired, .paired, .paired, .independent] } : State).pairModes[3] = .independent := by
  decide

/-- The ends of the field: four bytes hold the sequence at offset 0, three do not; a count in the last two of six. -/
theorem test_witness_UnplacedArrivals :
    let e := { entry with fmt := .message 0 .lsbFirst 4 }
    readFields e.fmt 6 [9, 0, 0, 0, 65, 0] = (some 9, some 65, false)
    ∧ readFields e.fmt 5 [9, 0, 0, 0, 65] = (some 9, none, true)
    ∧ readFields entry.fmt 4 [0, 0, 0, 9] = (some 9, none, false)
    ∧ readFields entry.fmt 3 [0, 0, 0] = (none, none, true)
    ∧ ({ arrival (.keyed key 4 []) with verdict := .fcs } : Arrival).verdict ≠ .none
    ∧ (arrival (.keyed key 4 [])).verdict = .none ∧ ({ entry with fmt := .none } : Entry).fmt = .none := by decide

/-- No base; the last slot of the window; the first behind the base; the 64th STALE arrival in a row. -/
theorem test_witness_SequencedArrivalsMarkTheirRange :
    entry.win.base = none
    ∧ (based.win.Ok ∧ based.win.base = some 1000 ∧ ((1063 : BitVec 32) - 1000).toNat + 1 ≤ 64)
    ∧ (holed.win.Ok ∧ holed.win.base = some 1000 ∧ holed.win.deadline.isSome = true ∧ holed.win.hasHole = true)
    ∧ (2 ^ 31 ≤ ((999 : BitVec 32) - 1000).toNat ∧ based.win.stale + 1 < 64)
    ∧ (let e := { based with win := { based.win with stale := 63 } }
       e.win.base = some 1000 ∧ e.win.stale + 1 = 64) := by decide

/-- The first place ahead of the window, and the last one that is ahead of the base. -/
theorem test_witness_AdvancesDeclareOverruns :
    based.win.Ok ∧ based.win.base = some 1000 ∧ rangeCount none = 1
    ∧ ((1064 : BitVec 32) - 1000).toNat < 2 ^ 31 ∧ 64 < ((1064 : BitVec 32) - 1000).toNat + 1
    ∧ ((2147484647 : BitVec 32) - 1000).toNat = 2 ^ 31 - 1 := by decide

/-- The new bases of the table of 06 R121: each row by old base, sequence and count. -/
theorem test_overruns_r121 :
    ([(1000, 1070, 1), (2000, 2070, 10), (5000, 5200, 1), (4294967280, 60, 4)].map fun (b, x, c) =>
      let e := { entry with win := baseWindow 0 pulse180 (BitVec.ofNat 32 b) 1 }
      (Entry.takeSequenced 0 3 (arrival (.keyed key 4 [])) (BitVec.ofNat 32 x) (some c) e).1.win.base)
    = [some 1007, some 2016, some 5137, some 0] := by decide

/-- A frame before its FCS, by 04 R83 to R85: type IPv4, IHL 5, total length 32, UDP to 224.0.0.1 port 5000, so
four bytes of payload, and padding that is not payload. -/
theorem test_parse_r85 :
    parseFrame (List.replicate 12 0 ++ [8, 0]
      ++ [0x45, 0, 0, 32, 0, 0, 0x40, 0, 64, 17, 0, 0, 10, 0, 0, 1, 224, 0, 0, 1]
      ++ [1, 2, 0x13, 0x88, 0, 12, 0, 0] ++ [0, 0, 0, 9] ++ List.replicate 14 0xAA)
    = .keyed key 4 [0, 0, 0, 9] := by decide

theorem test_witness_ClassificationFollowsTheSlot :
    (1 : Fin 8) ≠ 0 ∧ lagOf (stamp 41 200000 0) (stamp 41 200000 0) = 0
    ∧ lagOf (stamp 41 300004 0) (stamp 41 300010 0) < 0
    ∧ ({ stamp 41 0 0 with epoch := 1 } : Stamp).epoch ≠ (stamp 41 0 0).epoch
    ∧ (classify 0 (stamp 41 300004 0) (.seen 1 (stamp 41 300010 0))).cls = .follower
    ∧ (classify 0 (stamp 41 300004 0) (.seen 1 (stamp 41 300010 0))).overtook = true := by decide

/-- The records of an expiry: one run of one sequence. -/
theorem test_timeout_r127 :
    (Entry.expire 3 holding.now holed).2 = gapsOf 3 .timeout 1000 1000 holding.now [(1, 1)] := by decide

theorem test_witness_GapDeadlinesDeclareHoles :
    holding.running = true ∧ tableGet 3 holding.channels = some holed ∧ holed.win.Ok ∧ holed.win.base = some 1000
      ∧ holed.win.deadline = some { sec := 41, ns := 100180, sub := 0, epoch := 0 }
      ∧ (Deadline.reached { sec := 41, ns := 100180, sub := 0, epoch := 0 } holding.reading) = true
      ∧ (Deadline.reached { sec := 41, ns := 100180, sub := 0, epoch := 0 } (at_ 41 100179 4286578687).reading) = false
      ∧ (holding.channels.map Prod.fst).Pairwise (· < ·) ∧ holed.win.armedAt = some holding.tick := by decide

/-! ## Witnesses: the tick -/

/-- One unit below the end of a second, exactly at it, and at the end of the last second; edges presented, as
many as a tick takes and the list holds; a gap deadline, a silence deadline and a close bound that are reached. -/
theorem test_witness_CoreTickAddsTheIncrement :
    ((at_ 41 999999997 2147483647).running = true
      ∧ (at_ 41 999999997 2147483647).closeTick.time.within + (at_ 41 999999997 2147483647).closeTick.time.inc
          = Config.unitsPerSec - 1)
    ∧ ((at_ 41 999999997 2147483648).closeTick.time.within + (at_ 41 999999997 2147483648).closeTick.time.inc
          = Config.unitsPerSec
      ∧ (at_ 41 999999997 2147483648).closeTick.time.sec < Config.maxSec)
    ∧ ((at_ Config.maxSec 999999997 2147483648).closeTick.time.within
          + (at_ Config.maxSec 999999997 2147483648).closeTick.time.inc = Config.unitsPerSec
      ∧ Config.maxSec ≤ (at_ Config.maxSec 999999997 2147483648).closeTick.time.sec)
    ∧ (let x := { Interp.reset with presented := [4, 5], coarse := List.replicate 12 late }
       let s := withInterp (.line 0) x
       s.running = true ∧ (s.interp (.line 0)).captured + (s.interp (.line 0)).presented.length ≤ 2
         ∧ (s.interp (.line 0)).coarse.length + (s.interp (.line 0)).presented.length ≤ 14)
    ∧ (holding.channels.map Prod.fst).Pairwise (· < ·)
    ∧ (let s := { at_ 41 0 0 with disc := { steady .settling with silence := some due } }
       s.rolled ≠ .waiting ∧ (s.interp .ref).conv = none ∧ (s.interp .ref).coarse = [] ∧ s.disc.state = .settling
         ∧ s.disc.silence = some due ∧ due.reached s.reading = true)
    ∧ (let s := { at_ 41 10000 0 with disc := windowed .locked 1 }
       s.rolled ≠ .waiting ∧ (s.interp .ref).conv = none ∧ (s.interp .ref).coarse = []
         ∧ s.disc.window = some (windowAround 41 10000 0) ∧ s.disc.expected = some { sec := 41, epoch := 0 }
         ∧ (windowAround 41 10000 0).closeAt.reached s.reading = true)
    ∧ State.reset.running = false ∧ State.reset.releaseReady = false := by decide +kernel

/-! ## Witnesses: the marker unit, the pool -/

/-- A marker input with an edge select and a width code. -/
def marker (sel : EdgeSelect) (w : Fin 4) : Marker :=
  { Marker.reset with settings := { select := sel, width := w, comp := 0 } }

/-- A candidate for a rising edge, due at tick 0. -/
def candidate (selected : Bool) (st : Option Stamp) : Candidate :=
  { dir := .rising, captureTick := 0, qualTick := 0, selected := selected, comp := 0, edge := 0, stamp := st }

/-- An accepted edge that waits for its stamp. -/
def waits : Waiting := { dir := .rising, comp := 0, edge := 0, stamp := none }

theorem test_witness_MarkerEdgesAreFiltered :
    (marker .off 0).level ≠ edgeLevel .rising ∧ (marker .off 0).rawSeen < 2 ∧ (marker .off 0).waiting.length < 14
    ∧ (marker .off 0).settings.select = .off
    ∧ (marker .falling 0).settings.select ≠ .off ∧ (marker .falling 0).settings.select.names .rising = false
    ∧ (marker .rising 3).settings.select.names .rising = true
    ∧ ({ run with markers := run.markers.set 0 (marker .rising 3) } : State).markers[0] = marker .rising 3
    ∧ (candidate false none).qualTick ≤ run.tick ∧ (candidate false none).selected = false
    ∧ (candidate true (some pulse180)).selected = true ∧ (candidate true (some pulse180)).stamp = some pulse180
    ∧ run.tick < ({ candidate true none with qualTick := 1 } : Candidate).qualTick
    ∧ (let y := { marker .both 0 with waiting := List.replicate 14 waits }
       let s := { withInterp (.marker 0) { Interp.reset with coarse := [cap 41 181 64] } with
         markers := run.markers.set 0 y }
       s.markers[0].level ≠ edgeLevel .rising ∧ 14 ≤ y.waiting.length
         ∧ (s.dueEdges (.marker 0)).markers[0].waiting.length < 14
         ∧ ({ run with markers := run.markers.set 0 y } : State).dueEdges (.marker 0)
             = { run with markers := run.markers.set 0 y })
    ∧ State.reset.running = false
    ∧ (let y := { marker .both 3 with candidate := some (candidate true none) }
     y.candidate = some (candidate true none) ∧ (candidate true none).edge = (cap 41 181 64).edge
       ∧ (candidate true none).selected = true ∧ (candidate true none).stamp = none ∧ y.waiting = [])
    ∧ (let y := { marker .both 0 with waiting := [waits] }
       y.candidate = none ∧ y.waiting = [waits] ∧ waits.edge = (cap 41 181 64).edge ∧ waits.stamp = none)
    ∧ (let y := { marker .both 0 with waiting := [waits, { waits with edge := 1 }] }
       y.waiting = waits :: [{ waits with edge := 1 }] ∧ (∀ k ∈ y.candidate, k.edge ≠ (cap 41 181 64).edge)
         ∧ ∀ x ∈ [{ waits with edge := 1 }], x.edge ≠ (cap 41 181 64).edge)
    ∧ (let y := { marker .both 0 with waiting := [{ waits with edge := 1 }, waits, { waits with edge := 2 }] }
       y.waiting = [{ waits with edge := 1 }] ++ waits :: [{ waits with edge := 2 }]
         ∧ [{ waits with edge := 1 }] ≠ [] ∧ waits.stamp = none
         ∧ (∀ x ∈ [{ waits with edge := 1 }, { waits with edge := 2 }],
           x.edge ≠ (cap 41 181 64).edge ∧ x.stamp = none))
    ∧ (let y := { marker .both 3 with candidate := some (candidate true none), waiting := [{ waits with edge := 1 }] }
       y.candidate = some (candidate true none)
         ∧ ∀ w ∈ y.waiting, w.edge ≠ (cap 41 181 64).edge ∧ w.stamp = none)
    ∧ (marker .both 3).candidate = none ∧ (marker .both 3).waiting = [] := by decide

theorem test_witness_RecordsAreOfferedToTheirPorts :
    let o : Offer := { record := .gap { index := 3, cause := .rebase, first := 0, count := none, baseAfter := 0,
                                        stamp := pulse180 }
                       ports := #v[true, false, false] }
    (let s := { run with pool := { run.pool with fromEngine := [o] } }
     s.running = true ∧ s.pool.fromEngine = o :: [])
    ∧ (let s := { run with pool := { run.pool with fromMarkers := [o] } }
       s.pool.fromMarkers = o :: [])
    ∧ run.pool.fromEngine = []
    ∧ (Port.reset.inService = false ∧ (given .streaming 2 []).ports[0].inService = true
      ∧ ∀ n ∈ (given .streaming 2 []).ports[0].notices, noticeKind n.body ≠ 6)
    ∧ (let n : Notice := { body := .loss 4294967295 pulse180 pulse180 7, repeats := 1 }
       let m : Notice := { body := .invalid none, repeats := 65535 }
       let q := (port (fun q => { q with state := .held, notices := [m, n] }) run).ports[0]
       q.inService = true ∧ q.notices = [m] ++ n :: [] ∧ noticeKind n.body = 6
         ∧ (∀ x ∈ [m], noticeKind x.body ≠ 6)) := by decide

/-- 08 R156, R158: a LOSS keeps its place and its first stamp, takes the last stamp and the total, and counts both the
record and the repeat; the bit of its kind stands in the summary. -/
theorem test_loss_r158 :
    let m : Notice := { body := .invalid none, repeats := 1 }
    let q : Port := { Port.reset with
      state := .held, notices := [{ body := .loss 1 (stamp 41 0 0) (stamp 41 0 0) 5, repeats := 1 }, m] }
    let r := q.notify (.loss 1 (stamp 42 0 0) (stamp 42 0 0) 6)
    (r.notices, r.attention)
      = ([{ body := .loss 2 (stamp 41 0 0) (stamp 42 0 0) 6, repeats := 2 }, m], 0b001000000#9) := by decide

/-! ## Witnesses: the monitor and the reset input -/

/-- A state of the monitor after reset. -/
def phased (ph : Phase) (c : ReleaseCause) (good noTick : Nat) : State :=
  State.reset.updMon fun m => { m with phase := ph, cause := c, good := good, noTick := noTick }

theorem test_witness_MonitorCountsAndStates :
    (State.reset.mon.phase = .startup ∧ State.reset.mon.supplyLow = false ∧ State.reset.mon.vio = true)
    ∧ (State.reset.updMon fun m => { m with vio := false }).mon.vio = false
    ∧ (State.reset.updMon fun m => { m with supplyLow := true }).mon.supplyLow = true
    ∧ (phased .clockQualify .powerOn 4096 0).mon.phase ≠ .run
    ∧ (phased .clockQualify .powerOn 4096 0).mon.phase ≠ .stopped
    ∧ (phased .dipRecovery .supplyDip 0 0).mon.phase = .dipRecovery ∧ (phased .dip .supplyDip 0 0).mon.phase = .dip
    ∧ ((phased .clockQualify .powerOn 0 0).mon.phase = .clockQualify
      ∧ (phased .clockQualify .powerOn 0 0).mon.cause = .powerOn)
    ∧ ((phased .run .powerOn 0 30).mon.phase = .run ∧ (phased .run .powerOn 0 30).mon.noTick + 1 < 32)
    ∧ ((phased .run .powerOn 0 31).mon.phase = .run ∧ 32 ≤ (phased .run .powerOn 0 31).mon.noTick + 1)
    ∧ (phased .clockQualify .powerOn 0 32).mon.phase ≠ .run ∧ (phased .stopped .clockStop 0 0).mon.phase = .stopped := by decide

/-- Released after a stop and at power-on, at a value one unit short of a rollover, at one, and at the last second. -/
theorem test_witness_TheCoreIsReleased :
    ((phased .stopped .clockStop 0 0).releaseReady = true ∧ (phased .clockQualify .powerOn 4095 0).releaseReady = false)
    ∧ ((phased .stopped .clockStop 0 0).mon.phase = .stopped ∧ (phased .stopped .clockStop 0 0).rstnLow = false
      ∧ (phased .stopped .clockStop 0 0).mon.latched = false)
    ∧ ((phased .clockQualify .powerOn 4096 0).mon.phase = .clockQualify
      ∧ (phased .clockQualify .powerOn 4096 0).mon.good = 4096)
    ∧ (Config.unitsPerSec ≤ (at_ Config.maxSec 999999997 2147483648).time.within + increment 0 0
      ∧ 2 ^ 40 - 1 ≤ (at_ Config.maxSec 999999997 2147483648).time.sec)
    ∧ ((at_ 41 999999997 2147483647).time.within + increment 0 0 < Config.unitsPerSec)
    ∧ Config.unitsPerSec ≤ (at_ 41 999999997 2147483648).time.within + increment 0 0
    ∧ (let s := port (fun q => { q with state := .held })
         { phased .stopped .clockStop 0 0 with lines := State.reset.lines.set 7 (line .live []) }
       s.mon.phase = .stopped ∧ s.rstnLow = false ∧ s.mon.latched = false
         ∧ s.ports[0].inService = true ∧ s.lines[7].settings.enable = true ∧ s.lines[7].state ≠ .dark) := by decide

/-- Released with the pin low, and with an assertion and its release latched; then the tick before and the tick of the
release of RSTN. -/
theorem test_witness_ReleaseTakesRstn :
    (let s := { phased .stopped .clockStop 0 0 with rstnLow := true }
     s.mon.phase = .stopped ∧ s.rstnLow = true)
    ∧ (let s := (phased .clockQualify .powerOn 4096 0).updMon fun m => { m with latched := true, latchReleased := true }
       s.mon.phase = .clockQualify ∧ s.mon.good = 4096 ∧ s.mon.latched = true ∧ s.mon.latchReleased = true)
    ∧ (let s := { run with tick := 5, rstnAsserted := true, rstnLow := true, rstnReleaseAt := some 6 }
       s.running = true ∧ s.rstnReleaseAt = some 6 ∧ s.tick < 6)
    ∧ (let s := { run with tick := 6, rstnAsserted := true, rstnReleaseAt := some 6 }
       s.running = true ∧ s.rstnReleaseAt = some 6 ∧ 6 ≤ s.tick) := by decide

theorem test_witness_AStopFreezesAndADipClears :
    run.running = true ∧ run.mon.phase = .run ∧ (phased .stopped .clockStop 0 0).mon.phase = .stopped
    ∧ ((phased .clockQualify .supplyDip 0 0).mon.phase = .clockQualify
      ∧ (phased .clockQualify .supplyDip 0 0).mon.cause ≠ .powerOn) := by decide

theorem test_witness_RstnResetsPortsLinesAndWindows :
    (run.running = true ∧ run.rstnLow = false ∧ run.rstnAsserted = false)
    ∧ (let s := { run with rstnAsserted := true }
       s.running = true ∧ s.rstnLow = false ∧ s.rstnAsserted = true)
    ∧ (let s := { run with rstnLow := true, rstnAsserted := true }
       s.running = true ∧ s.rstnLow = true ∧ s.rstnAsserted = true ∧ s.rstnReleaseAt = none)
    ∧ (State.reset.running = false ∧ State.reset.rstnLow = false)
    ∧ ({ State.reset with rstnLow := true } : State).rstnLow = true := by decide

/-! ## Witnesses: what every step keeps -/

/-- A state with STARTUP_DELAY_END waiting, and that state after the step. -/
def before (s : State) : State := { s with pending := [.startupDelayEnd] }
def after (s : State) : State := s.updMon fun m => { m with phase := .clockQualify, rc := 65536 }

theorem test_witness_EveryStepKeepsTheTimescale :
    ((before .reset).TimeOk ∧ (before .reset).DisciplineOk ∧ step (before .reset) = .next (after .reset))
    ∧ (let s := { State.reset with secpFell := some { tick := 0, width := 0 } }
       (before s).SecpOk ∧ step (before s) = .next (after s)) :=
  ⟨⟨by decide, by decide, rfl⟩, by decide, rfl⟩

theorem test_witness_EveryStepKeepsTheInputs :
    ((before .reset).InterpsOk ∧ (before .reset).LinesOk ∧ (before .reset).MarkersOk)
      ∧ step (before .reset) = .next (after .reset) := ⟨by decide, rfl⟩

theorem test_witness_EveryStepKeepsTheChannelTable :
    (before { State.reset with channels := [(3, entry)] }).TableOk
      ∧ step (before { State.reset with channels := [(3, entry)] })
          = .next (after { State.reset with channels := [(3, entry)] }) := ⟨by decide, rfl⟩

theorem test_witness_EveryStepKeepsThePorts :
    (before .reset).PortsOk ∧ (before .reset).RstnOk ∧ step (before .reset) = .next (after .reset) :=
  ⟨by decide, by decide, rfl⟩

theorem test_witness_EveryStepKeepsTheRecordStore :
    (before .reset).QuotasOk ∧ (before .reset).PoolOk ∧ step (before .reset) = .next (after .reset) :=
  ⟨by decide, by decide, rfl⟩

theorem test_witness_EveryStepKeepsTheMonitor :
    (before .reset).MonitorOk ∧ step (before .reset) = .next (after .reset) := ⟨by decide, rfl⟩

end Sys2Proof.Tests
end

/-! PROOF. Readings of the timescale (01 R6, R7): the time of a reading is the whole value, rounded half up to 1/256 ns
and held at the greatest reading, so it never falls as the value rises. -/

namespace Sys2Proof.Machine

/-! ## The time of a reading -/

/-- Dividing by 2^24 and rounding half up, written with the half doubled away. -/
theorem subOf_eq (frac : Nat) : subOf frac = (2 * frac + 2 ^ 24) / 2 ^ 25 := by
  unfold subOf; omega

theorem subOf_le {frac : Nat} (h : frac < 2 ^ 32) : subOf frac ≤ 256 := by
  unfold subOf; omega

/-- Seconds, nanoseconds and sub of the reading of a value: the rounded fraction, with its carries. -/
def Timescale.rounded (t : Timescale) : Nat × Nat × Nat :=
  if subOf t.frac < 256 then (t.sec, t.ns, subOf t.frac)
  else if t.ns < 999999999 then (t.sec, t.ns + 1, 0)
  else if t.sec < 2 ^ 40 - 1 then (t.sec + 1, 0, 0)
  else (2 ^ 40 - 1, 999999999, 255)

/-- The reading of a time with the conditions in force (01 R7). Lemmas about it are for every time, so that no proof
evaluates `Timescale.rounded`. -/
def State.readingOf (s : State) : Nat × Nat × Nat → Reading
  | (sec, ns, sub) => { sec := sec, ns := ns, sub := sub, epoch := s.time.epoch, quality := s.disc.state
                        invalid := s.mon.invalid, suspect := s.disc.suspect }

theorem State.readingOf_inj (s : State) (p q : Nat × Nat × Nat) : s.readingOf p = s.readingOf q ↔ p = q := by
  obtain ⟨sec, ns, sub⟩ := p
  obtain ⟨sec', ns', sub'⟩ := q
  simp [State.readingOf]

theorem State.unitsOf_readingOf (s : State) (p : Nat × Nat × Nat) :
    unitsOf (s.readingOf p).sec (s.readingOf p).ns (s.readingOf p).sub = unitsOf p.1 p.2.1 p.2.2 := rfl

/-- A reading is the rounded value with the conditions in force (01 R6, R7). -/
theorem State.reading_eq (s : State) : s.reading = s.readingOf s.time.rounded := by
  have carry : s.time.ns + 1 < Config.nsPerSec ↔ s.time.ns < 999999999 := by
    unfold Config.nsPerSec; omega
  unfold State.reading Timescale.rounded Config.maxSec
  simp only [carry]
  split
  · rfl
  split
  · rfl
  split <;> rfl

/-! ## The reading as a whole number of 1/256 ns -/

/-- The greatest reading, 2^40 − 1 s 999,999,999 ns 255/256, in units of 1/256 ns. -/
def maxReadingUnits : Nat := unitsOf (2 ^ 40 - 1) 999999999 255

/-- Whole seconds and nanoseconds are whole units, so rounding the fraction rounds the value. -/
theorem unitsOf_subOf (t : Timescale) :
    unitsOf t.sec t.ns (subOf t.frac) = (t.sec * Config.unitsPerSec + t.within + 2 ^ 23) / 2 ^ 24 := by
  unfold unitsOf subOf Timescale.within Config.unitsPerSec Config.nsPerSec; omega

/-- The carries keep the rounded value, except past the greatest reading, where it is held. -/
theorem Timescale.unitsOf_rounded (t : Timescale) (hns : t.ns < 1000000000) (hfrac : t.frac < 2 ^ 32)
    (hsec : t.sec ≤ 2 ^ 40 - 1) :
    unitsOf t.rounded.1 t.rounded.2.1 t.rounded.2.2
      = min (unitsOf t.sec t.ns (subOf t.frac)) maxReadingUnits := by
  have hsub := subOf_le hfrac
  unfold Timescale.rounded maxReadingUnits unitsOf Config.nsPerSec
  split
  case isTrue noCarry => dsimp only; omega
  case isFalse toNs =>
    split
    case isTrue nsFits => dsimp only; omega
    case isFalse toSec =>
      split
      case isTrue secFits => dsimp only; omega
      case isFalse held => dsimp only; omega

/-- A reading is the whole value divided by 2^24, rounded half up and held at the greatest reading (01 R6). -/
theorem State.unitsOf_reading (s : State) (hns : s.time.ns < 1000000000) (hfrac : s.time.frac < 2 ^ 32)
    (hsec : s.time.sec ≤ 2 ^ 40 - 1) :
    unitsOf s.reading.sec s.reading.ns s.reading.sub
      = min ((s.time.sec * Config.unitsPerSec + s.time.within + 2 ^ 23) / 2 ^ 24) maxReadingUnits := by
  rw [s.reading_eq, s.unitsOf_readingOf, s.time.unitsOf_rounded hns hfrac hsec, unitsOf_subOf]

/-- Settles O25: the first part is `State.reading_eq`; rounding and holding keep the order of the values. -/
theorem readingsAreRounded : Obligations.ReadingsAreRounded := by
  refine ⟨?_, ?_⟩
  · rintro s n - hfrac - hn
    obtain rfl : n = subOf s.time.frac := by rw [hn, subOf_eq]
    refine ⟨subOf_le hfrac, fun sec ns sub => ?_⟩
    change s.reading = s.readingOf (sec, ns, sub) ↔ (sec, ns, sub) = s.time.rounded
    rw [s.reading_eq, s.readingOf_inj, eq_comm]
  · intro s t sns sfrac ssec tns tfrac tsec hle
    rw [s.unitsOf_reading sns sfrac ssec, t.unitsOf_reading tns tfrac tsec]
    exact min_le_min_right _ (Nat.div_le_div_right (Nat.add_le_add_right hle _))

end Sys2Proof.Machine

/-! PROOF. Pulse errors, and the terms after an update (02 R27, R29): rounding half away from zero is odd, so its error
is bounded on the natural numbers; a change of the increment touches neither epoch nor terms. -/

namespace Sys2Proof.Machine

/-! ## Quotients rounded half away from zero -/

theorem roundHalfAway_neg (n : Int) (d : Nat) : roundHalfAway (-n) d = -roundHalfAway n d := by
  simp [roundHalfAway]

/-- At zero the sign makes the quotient zero, and so does rounding down half of one. -/
theorem roundHalfAway_natCast (m : Nat) {d : Nat} (hd : 0 < d) :
    roundHalfAway m d = ((2 * m + d) / (2 * d) : Nat) := by
  cases m with
  | zero =>
    have half : d / (2 * d) = 0 := Nat.div_eq_of_lt (by omega)
    simp [roundHalfAway, half]
  | succ m =>
    have positive : ((m + 1 : Nat) : Int).sign = 1 := Int.sign_eq_one_of_pos (by omega)
    rw [roundHalfAway, positive, Int.one_mul, Int.natAbs_natCast]

/-- The rounded quotient times the divisor lies at most half a divisor above the dividend and less than half a divisor
below it (all doubled). -/
theorem roundHalfAway_natCast_mul (m : Nat) {d : Nat} (hd : 0 < d) :
    2 * (roundHalfAway m d * d) ≤ 2 * m + d ∧ 2 * (m : Int) < 2 * (roundHalfAway m d * d) + d := by
  rw [roundHalfAway_natCast m hd]
  have low : (2 * m + d) / (2 * d) * (2 * d) ≤ 2 * m + d := Nat.div_mul_le_self _ _
  have high : 2 * m + d < (2 * m + d) / (2 * d) * (2 * d) + 2 * d := Nat.lt_div_mul_add (by omega)
  rw [Nat.mul_left_comm] at low high
  exact ⟨by exact_mod_cast low, by norm_cast; omega⟩

/-- A rounded quotient is a nearest one, and of two nearest ones that away from zero (02 R29). -/
theorem roundHalfAway_nearest (n : Int) {d : Nat} (hd : 0 < d) :
    2 * (roundHalfAway n d * d - n).natAbs ≤ d
      ∧ (2 * (roundHalfAway n d * d - n).natAbs = d → n.natAbs ≤ (roundHalfAway n d * d).natAbs) := by
  obtain ⟨m, rfl | rfl⟩ := n.eq_nat_or_neg
  case inl =>
    have := roundHalfAway_natCast_mul m hd
    omega
  case inr =>
    have := roundHalfAway_natCast_mul m hd
    rw [roundHalfAway_neg, Int.neg_mul]
    omega

/-! ## The error of a pulse -/

/-- In the first half of its second a pulse is late against that second (02 R27). -/
theorem judgePulse_late (st : Stamp) (h : st.ns < 500000000) :
    judgePulse st =
      { stamp := st, e := st.ns + if 128 ≤ st.sub then 1 else 0, ex := st.ns * 256 + st.sub, nominal := st.sec } :=
  if_pos h

/-- From the middle of its second on a pulse is early against the next second (02 R27). -/
theorem judgePulse_early (st : Stamp) (h : 500000000 ≤ st.ns) :
    judgePulse st =
      { stamp := st, e := (st.ns : Int) - 1000000000 + if 128 ≤ st.sub then 1 else 0
        ex := ((st.ns : Int) - 1000000000) * 256 + st.sub, nominal := st.sec + 1 } :=
  if_neg (Nat.not_lt.2 h)

/-! ## A change of the increment -/

@[simp] theorem Timescale.atMax_epoch (n : Nat) (t : Timescale) : (t.atMax n).epoch = t.epoch := rfl
@[simp] theorem Timescale.atMax_inc (n : Nat) (t : Timescale) : (t.atMax n).inc = t.inc := rfl

/-- Whatever becomes of the value, the increment is the new one and the epoch stays (01 R3). -/
theorem Timescale.reincrement_inc_epoch (inc : Nat) (t : Timescale) :
    (t.reincrement inc).inc = inc ∧ (t.reincrement inc).epoch = t.epoch := by
  unfold Timescale.reincrement
  dsimp only
  split
  case isTrue same => exact ⟨same, rfl⟩
  case isFalse changed =>
    split
    case isTrue borrow => split <;> simp
    case isFalse noBorrow =>
      split
      case isTrue within => simp
      case isFalse carry => split <;> simp

@[simp] theorem Timescale.reincrement_inc (inc : Nat) (t : Timescale) : (t.reincrement inc).inc = inc :=
  (t.reincrement_inc_epoch inc).1

@[simp] theorem Timescale.reincrement_epoch (inc : Nat) (t : Timescale) : (t.reincrement inc).epoch = t.epoch :=
  (t.reincrement_inc_epoch inc).2

/-! ## An update -/

/-- An update changes the terms of the controller alone (02 R29). -/
@[simp] theorem State.update_disc (e : Int) (s : State) : (s.update e).disc = s.disc.updated e := rfl

/-- An update takes the increment of its new terms at this tick (01 R3). -/
@[simp] theorem State.update_time (e : Int) (s : State) :
    (s.update e).time = s.time.reincrement (increment (s.disc.updated e).rate (s.disc.updated e).slew) := rfl

/-- Settles O32: `judgePulse_late`, `judgePulse_early`, `roundHalfAway_nearest`, and the terms and the time after an
update. -/
theorem pulseErrorsAndUpdates : Obligations.PulseErrorsAndUpdates := by
  refine ⟨fun st => ⟨?_, ?_⟩, fun n _ => roundHalfAway_nearest n, ?_⟩
  · rintro h _ rfl
    simp [judgePulse_late st h]
  · rintro h _ rfl
    simp [judgePulse_early st h]
  · rintro e s _ rfl
    simp

end Sys2Proof.Machine

/-! PROOF. Fine offsets (03 R61, R62): the middle of a bin is the mean of its two boundaries, and boundaries never fall
with rising code, so neither do the rounded and clamped middles. -/

namespace Sys2Proof.Machine

/-! ## The boundaries of the bins -/

/-- The upper boundary of a bin is its lower one and its count (03 R61). -/
theorem sumBelow_succ (t : CalTable) (k : Fin 32) : sumBelow t (k + 1) = sumBelow t k + t[k] := by
  have inTable : k.val < t.toList.length := by simp
  rw [sumBelow, List.sum_take_succ _ _ inTable, Vector.getElem_toList, sumBelow, Fin.getElem_fin]

theorem sumBelow_mono (t : CalTable) : Monotone (sumBelow t) :=
  List.monotone_sum_take t.toList

/-! ## The middles of the bins -/

/-- Twice the middle of a bin is the sum of its boundaries (03 R62). -/
theorem fineOffset_eq_boundaries (t : CalTable) (k : Fin 32) :
    fineOffset t k = min ((5 * (sumBelow t k + sumBelow t (k + 1)) + 512) / 1024) 639 := by
  rw [fineOffset, sumBelow_succ, ← Nat.add_assoc, ← Nat.two_mul]

/-- The formula in lowest terms is the one over 131,072: 640 / 131,072 is 5 / 1,024 (03 R61). -/
theorem fineOffset_eq_rounded (t : CalTable) (k : Fin 32) :
    fineOffset t k = min 639 ((2 * (640 * (2 * sumBelow t k + t[k])) + 131072) / (2 * 131072)) := by
  have scaled (x : Nat) : (5 * x + 512) / 1024 = (2 * (640 * x) + 131072) / (2 * 131072) := by omega
  rw [fineOffset, scaled, Nat.min_comm]

theorem fineOffset_mono (t : CalTable) : Monotone (fineOffset t) := by
  intro j k hjk
  have lower : sumBelow t j ≤ sumBelow t k := sumBelow_mono t hjk
  have upper : sumBelow t (j + 1) ≤ sumBelow t (k + 1) := sumBelow_mono t (Nat.succ_le_succ hjk)
  rw [fineOffset_eq_boundaries, fineOffset_eq_boundaries]
  gcongr

/-- Settles O30: `fineOffset_eq_rounded`, `fineOffset_mono`, `fineOffset_le`. The order and the bound need no table to
be full: the clamp holds the offsets of any counts. -/
theorem fineOffsetsNeverFall : Obligations.FineOffsetsNeverFall :=
  fun t _ => ⟨fineOffset_eq_rounded t, fun _ k hjk => ⟨fineOffset_mono t hjk, fineOffset_le t k⟩⟩

end Sys2Proof.Machine

/-! PROOF. Stamp assembly (04 R81, R82): a stamp is its capture reading dated anew, at a time within the second that is
the reading's less the delay, with one borrow at most, or at zero. -/

namespace Sys2Proof.Machine

/-! ## A reading dated anew -/

/-- The stamp of an edge at `v` units of 1/256 ns within second `sec`, with the conditions of its capture reading. -/
def Reading.dated (r : Reading) (coarse : Bool) (sec v : Nat) (clamped : Bool) : Stamp :=
  { sec := sec, ns := v / 256, sub := v % 256, epoch := r.epoch, quality := r.quality, invalid := r.invalid
    suspect := r.suspect, coarse := coarse, clamped := clamped, readAt := none }

section
variable {r : Reading} {coarse : Bool} {sec v : Nat} {clamped : Bool}

theorem Reading.dated_units :
    (r.dated coarse sec v clamped).ns * 256 + (r.dated coarse sec v clamped).sub = v :=
  Nat.div_add_mod' v 256

theorem Reading.dated_sub_lt : (r.dated coarse sec v clamped).sub < 256 :=
  Nat.mod_lt v (by decide)

theorem Reading.dated_ns_lt (h : v < 256 * 1000000000) :
    (r.dated coarse sec v clamped).ns < 1000000000 :=
  Nat.div_lt_of_lt_mul h

end

/-! ## The three results of the subtraction -/

section
variable {r : Reading} {f l : Nat} {coarse : Bool}

/-- A delay within the reading's time in its second takes no borrow (04 R81). -/
theorem assembleStamp_noBorrow (fits : f + l ≤ r.ns * 256 + r.sub) :
    assembleStamp r f l coarse = r.dated coarse r.sec (r.ns * 256 + r.sub - (f + l)) false :=
  if_pos fits

/-- A longer delay borrows one second, where the reading has one (04 R81). -/
theorem assembleStamp_borrow (below : r.ns * 256 + r.sub < f + l) (hsec : 0 < r.sec) :
    assembleStamp r f l coarse =
      r.dated coarse (r.sec - 1) (r.ns * 256 + r.sub + 256 * 1000000000 - (f + l)) false := by
  rw [assembleStamp, if_neg (Nat.not_le.2 below), if_pos hsec]
  rfl

/-- In second 0 a longer delay gives zero with CLAMPED (04 R82). -/
theorem assembleStamp_clamped (below : r.ns * 256 + r.sub < f + l) (hsec : r.sec = 0) :
    assembleStamp r f l coarse = r.dated coarse 0 0 true := by
  rw [assembleStamp, if_neg (Nat.not_le.2 below), if_neg (by omega)]
  rfl

/-- Each result lies within a second: the time of a reading does, and a borrow follows a delay longer than it
(04 R81). -/
theorem assembleStamp_eq_dated (hr : r.Ok) (hdelay : f + l ≤ 256 * 1000000000) :
    ∃ sec v clamped, v < 256 * 1000000000 ∧ assembleStamp r f l coarse = r.dated coarse sec v clamped := by
  have inSecond : r.ns * 256 + r.sub < 256 * 1000000000 := by
    obtain ⟨hns, hsub⟩ := hr
    unfold Config.nsPerSec at hns
    omega
  rcases Nat.lt_or_ge (r.ns * 256 + r.sub) (f + l) with below | fits
  case inr => exact ⟨_, _, _, by omega, assembleStamp_noBorrow fits⟩
  case inl =>
    rcases Nat.eq_zero_or_pos r.sec with zero | pos
    · exact ⟨_, _, _, by omega, assembleStamp_clamped below zero⟩
    · exact ⟨_, _, _, by omega, assembleStamp_borrow below pos⟩

end

/-- Settles O29: bounds and conditions are those of any date within a second (`assembleStamp_eq_dated`); each clause
about the time is the equation of its case. -/
theorem stampsSubtractTheDelay : Obligations.StampsSubtractTheDelay := by
  rintro r f l coarse hr hf hl _ rfl
  have hdelay : f + l ≤ 256 * 1000000000 := by omega
  obtain ⟨sec, v, clamped, inSecond, dated⟩ := assembleStamp_eq_dated (coarse := coarse) hr hdelay
  refine ⟨?_, ?_, ?_, ?_, ?_, ?_, ?_, fun fits => ?noBorrow, fun below hsec => ?borrow, fun below hsec => ?clamp⟩
  case noBorrow =>
    rw [assembleStamp_noBorrow fits]
    exact ⟨rfl, Reading.dated_units, rfl⟩
  case borrow =>
    rw [assembleStamp_borrow below hsec, Reading.dated_units]
    exact ⟨rfl, by omega, rfl⟩
  case clamp =>
    rw [assembleStamp_clamped below hsec]
    exact ⟨rfl, rfl, rfl, rfl⟩
  all_goals rw [dated]
  · exact Reading.dated_ns_lt inSecond
  · exact Reading.dated_sub_lt
  all_goals rfl

end Sys2Proof.Machine

/-! PROOF. Swap Markers (07 R143): the owner takes the command that the port holds, so the reply lays out the pending
set of the port that calls, and that set alone is emptied. -/

namespace Sys2Proof.Machine

/-! ## A command its owner knows -/

/-- The command that a port holds is acted on and answered by the owner that knows it (09 R175). -/
theorem State.takeCommand_of_holds {p : Fin 3} {k : Command} {f : Command → Option (State → State × Reply)} {s : State}
    {act : State → State × Reply} (holds : s.Holds p k) (known : f k = some act) :
    s.takeCommand p f = (act s).1.answered p (act s).2 := by
  obtain ⟨running, parsed⟩ := holds
  rw [State.takeCommand, if_pos running, parsed, Option.bind_some, known]

/-! ## The four counts -/

/-- The counts of the four inputs as the reply lays them out, one byte each in the order of the inputs (11 R192). -/
theorem pendingCounts_bytes (v : Vector Nat 4) :
    v.toList.map byte = [byte v[0], byte v[1], byte v[2], byte v[3]] := by
  obtain ⟨⟨l⟩, four⟩ := v
  match l, four with
  | [_, _, _, _], _ => rfl

theorem State.swapMarkers_eq (p : Fin 3) (s : State) :
    s.swapMarkers p =
      ({ s with markerPending := s.markerPending.set p #v[0, 0, 0, 0] },
       reply .done [byte s.markerPending[p][0], byte s.markerPending[p][1], byte s.markerPending[p][2],
                    byte s.markerPending[p][3]]) := by
  rw [State.swapMarkers, pendingCounts_bytes]
  rfl

/-- The step of SWAP_MARKERS on a port that holds the command is its action and the answer. -/
theorem exec_swapMarkers {p : Fin 3} {s : State} (holds : s.Holds p .swapMarkers) :
    exec (.swapMarkers p) s = .next ((s.swapMarkers p).1.answered p (s.swapMarkers p).2) :=
  congrArg Host.Outcome.next (State.takeCommand_of_holds holds rfl)

/-- Settles O10: the command is taken (`exec_swapMarkers`), and its action empties the set that its reply lays out
(`State.swapMarkers_eq`). -/
theorem swapMarkersEmptiesThePendingSet : Obligations.SwapMarkersEmptiesThePendingSet := by
  intro p s holds
  rw [exec_swapMarkers holds, State.swapMarkers_eq]

end Sys2Proof.Machine

/-! PROOF. Attach and Set Pacing (09 R167, R179): the port takes the command it holds, so each clause is the equation of
the command's action in the case that the clause names. -/

namespace Sys2Proof.Machine

/-! ## Attach (09 R167) -/

theorem State.attach_of_detached {p : Fin 3} {s : State} (n : Nat) (detached : s.ports[p].state = .detached) :
    s.attach p n =
      (s.updPort p fun q =>
        { q with state := .streaming, credits := n,
                 hbTimer := q.pacing.heartbeatTicks.map fun k => s.tick + k }, .bare .done) := by
  rw [State.attach, if_pos detached]

theorem State.attach_of_not_detached {p : Fin 3} {s : State} (n : Nat) (other : s.ports[p].state ≠ .detached) :
    s.attach p n = (s, refusal) := by
  rw [State.attach, if_neg other]

/-- The step of ATTACH on a port that holds the command is its action and the answer. -/
theorem exec_attach {p : Fin 3} {n : Nat} {s : State} (holds : s.Holds p (.attach n)) :
    exec (.attach p) s = .next ((s.attach p n).1.answered p (s.attach p n).2) :=
  congrArg Host.Outcome.next (State.takeCommand_of_holds holds rfl)

/-- Settles O3: the command is taken (`exec_attach`), and its action turns on whether the port is DETACHED. -/
theorem attachStartsStreaming : Obligations.AttachStartsStreaming := by
  intro p n s holds
  rw [exec_attach holds]
  constructor
  · intro detached
    rw [State.attach_of_detached n detached]
  · intro other
    rw [State.attach_of_not_detached n other]

/-! ## Codes and replies -/

theorem code4_of_lt {n : Nat} (h : n < 4) : code4 n = some ⟨n, h⟩ := dif_pos h

theorem code4_of_le {n : Nat} (h : 4 ≤ n) : code4 n = none := dif_neg (Nat.not_lt.2 h)

theorem code12_of_lt {n : Nat} (h : n < 12) : code12 n = some ⟨n, h⟩ := dif_pos h

theorem code12_of_le {n : Nat} (h : 12 ≤ n) : code12 n = none := dif_neg (Nat.not_lt.2 h)

/-- A command that puts `inForce` in place of the value given is answered DONE_CLAMPED just where the two differ
(09 R176). -/
theorem Reply.carriedOut_ne {α : Type} [DecidableEq α] (inForce given : α) (data : List Byte) :
    Reply.carriedOut (inForce != given) data = reply (doneIf (inForce = given)) data := by
  by_cases same : inForce = given <;> simp [Reply.carriedOut, same]

/-! ## Numbers laid out in bytes -/

/-- Reading bytes on from a number shifts it by the bytes read and adds theirs. -/
theorem foldl_toBytes (k n acc : Nat) :
    (toBytes k n).foldl (fun m b => m * 256 + b.toNat) acc = acc * 256 ^ k + n % 256 ^ k := by
  induction k generalizing acc with
  | zero => simp [toBytes, Nat.mod_one]
  | succ k ih =>
    have digits : n % 256 ^ (k + 1) = n % 256 ^ k + 256 ^ k * (n / 256 ^ k % 256) := by
      rw [pow_succ, Nat.mod_mul]
    rw [toBytes, List.foldl_cons, ih, BitVec.toNat_ofNat, digits]
    ring

/-- A number is read back from where it was laid out, less what its bytes do not hold (11). -/
theorem numberAt_toBytes (before after : List Byte) (k n : Nat) :
    numberAt before.length k (before ++ (toBytes k n ++ after)) = n % 256 ^ k := by
  have field : ((before ++ (toBytes k n ++ after)).drop before.length).take k = toBytes k n := by
    rw [List.drop_left, List.take_left' (toBytes_length k n)]
  rw [numberAt, field, foldl_toBytes, Nat.zero_mul, Nat.zero_add]

/-! ## Pacing settings -/

theorem Pacing.bytes_eq (n : Pacing) :
    n.bytes = toBytes 1 n.heartbeat.val ++ (toBytes 2 n.holdMs ++ toBytes 1 n.silence.val) := by
  simp [Pacing.bytes, toBytes, byte]

/-- The settings as a Set Pacing and its reply carry them (11 R192). -/
theorem Pacing.laysOut (n : Pacing) :
    LaysOut n.bytes 4 [(0, 1, n.heartbeat.val), (1, 2, n.holdMs), (3, 1, n.silence.val)] := by
  have heartbeat := numberAt_toBytes [] (toBytes 2 n.holdMs ++ toBytes 1 n.silence.val) 1 n.heartbeat.val
  have hold := numberAt_toBytes (toBytes 1 n.heartbeat.val) (toBytes 1 n.silence.val) 2 n.holdMs
  have silence := numberAt_toBytes (toBytes 1 n.heartbeat.val ++ toBytes 2 n.holdMs) [] 1 n.silence.val
  rw [List.append_nil, List.append_assoc] at silence
  rw [Pacing.bytes_eq]
  refine ⟨by simp, ?_⟩
  simp only [List.forall_mem_cons]
  exact ⟨congrArg Nat.cast heartbeat, congrArg Nat.cast hold, congrArg Nat.cast silence, by simp⟩

/-- The silence code counts powers of 4 ms (11.6). -/
theorem Pacing.silenceTicks_eq (n : Pacing) :
    n.silenceTicks = [400000, 1600000, 6400000, 25600000].getD n.silence.val 0 := by
  have table : ∀ c : Fin 4, 4 ^ c.val * 400000 = [400000, 1600000, 6400000, 25600000].getD c.val 0 := by decide
  exact table n.silence

/-! ## Set Pacing (09 R179) -/

theorem State.setPacing_of_codes {p : Fin 3} {h ms si : Nat} {s : State} (hc : h < 12) (sc : si < 4) {n : Pacing}
    (settings : n = { heartbeat := ⟨h, hc⟩, holdMs := max 1 (min 1000 ms), silence := ⟨si, sc⟩ }) :
    s.setPacing p h ms si =
      (s.updPort p fun q => { q with pacing := n, hbTimer := q.repace s.tick n },
       reply (doneIf (max 1 (min 1000 ms) = ms)) n.bytes) := by
  subst settings
  rw [State.setPacing, code12_of_lt hc, code4_of_lt sc]
  exact congrArg (Prod.mk _) (Reply.carriedOut_ne _ ms _)

theorem State.setPacing_of_no_code {p : Fin 3} {h ms si : Nat} {s : State} (bad : 12 ≤ h ∨ 4 ≤ si) :
    s.setPacing p h ms si = (s, .bare .malformed) := by
  rw [State.setPacing]
  obtain heartbeat | silence := bad
  · rw [code12_of_le heartbeat]
  · rw [code4_of_le silence]
    cases code12 h <;> rfl

/-- The step of SET_PACING on a port that holds the command is its action and the answer. -/
theorem exec_setPacing {p : Fin 3} {h ms si : Nat} {s : State} (holds : s.Holds p (.setPacing h ms si)) :
    exec (.setPacing p) s = .next ((s.setPacing p h ms si).1.answered p (s.setPacing p h ms si).2) :=
  congrArg Host.Outcome.next (State.takeCommand_of_holds holds rfl)

/-- Settles O6: the command is taken (`exec_setPacing`), and its action turns on whether both codes name a value; what
the settings in force say is `Pacing.laysOut` and the two timers' ticks. -/
theorem setPacingReplacesTheSettings : Obligations.SetPacingReplacesTheSettings := by
  intro p h ms si s holds
  rw [exec_setPacing holds]
  constructor
  · intro hc sc n settings
    refine ⟨?effect, ?layout, ?heartbeat, ?silence⟩
    case effect =>
      rw [State.setPacing_of_codes hc sc settings]
      rfl
    all_goals subst settings
    case layout => exact Pacing.laysOut _
    case heartbeat => rfl
    case silence => exact Pacing.silenceTicks_eq _
  · intro bad
    rw [State.setPacing_of_no_code bad]

end Sys2Proof.Machine

/-! PROOF. Commands of the drop links (09 R175, R178): each command has one row that takes it and one action of its
owner; a row that takes a command acts and answers, and does nothing else. -/

namespace Sys2Proof.Machine

/-! ## The row and the action of each command -/

/-- The row that takes a command at port `p` and what its owner does with it; Reset Port is taken in parts instead
(09 R178, R181). -/
def Command.owner (p : Fin 3) : Command → Option (Instr × (State → State × Reply))
  | .attach n => some (.attach p, State.attach p n)
  | .detach => some (.detach p, State.detach p)
  | .hold => some (.hold p, State.hold p)
  | .release => some (.release p, State.release p)
  | .grantCredits n => some (.grantCredits p, State.grantCredits p n)
  | .setQuota n => some (.setQuota p, State.setQuota p n)
  | .setPacing h m si => some (.setPacing p, State.setPacing p h m si)
  | .subscribe a b l => some (.subscribe p, State.setLevels p a b l subscribed)
  | .unsubscribe a b l => some (.unsubscribe p, State.setLevels p a b l unsubscribed)
  | .subscribeMarkers x => some (.subscribeMarkers p, State.setMarkerSubs p x)
  | .subscribeUnmapped x => some (.subscribeUnmapped p, State.setUnmapped p x)
  | .queryTime => some (.queryTime p, State.queryTime)
  | .readStatus => some (.readStatus p, State.readStatus p)
  | .readChannel i => some (.readChannel p, State.readChannel i)
  | .swapMarkers => some (.swapMarkers p, State.swapMarkers p)
  | .readMarkerLog m => some (.readMarkerLog p, State.readMarkerLog m)
  | .resetPort => none
  | .writeChannel i k n a q m o r x g => some (.writeChannel p, State.writeChannel p i k n a q m o r x g)
  | .removeChannel i => some (.removeChannel p, State.removeChannel p i)
  | .setPairMode q m => some (.setPairMode p, State.setPairMode p q m)
  | .writeLineSettings l e x q => some (.writeLineSettings p, State.writeLine p l e x q)
  | .writeMarkerSettings m e w x => some (.writeMarkerSettings p, State.writeMarker p m e w x)
  | .writeDisciplineSettings sl a b w lt lc rc st hl ci sw ls po =>
    some (.writeDisciplineSettings p, State.writeDiscipline p sl a b w lt lc rc st hl ci sw ls po)
  | .labelNextPulse v => some (.labelNextPulse p, State.armLabel v)
  | .trimRate r => some (.trimRate p, State.trimRate r)
  | .clearInvalid => some (.clearInvalid p, State.clearInvalid)

/-- The row of a command that a port holds is the action of its owner, and the answer (09 R175). -/
theorem exec_command {p : Fin 3} {k : Command} {s : State} {row : Instr} {act : State → State × Reply}
    (holds : s.Holds p k) (own : k.owner p = some (row, act)) :
    exec row s = .next ((act s).1.answered p (act s).2) := by
  cases k <;>
    first
    | cases own; exact congrArg Host.Outcome.next (State.takeCommand_of_holds holds rfl)
    | cases own

/-! ## The port's own commands (09 R168, R169, R171) -/

/-- Leaving service for DETACHED, with every field written out. -/
theorem State.detachPort_eq (p : Fin 3) (cause : DetachCause) (s : State) :
    s.detachPort p cause =
      (s.releaseIds s.ports[p].queue).updPort p fun q => q.outOfService .detached cause := rfl

theorem State.detach_of_inService {p : Fin 3} {s : State} (service : s.ports[p].inService = true) :
    s.detach p = (s.detachPort p .command, .bare .done) := by
  rw [State.detach, if_pos service]

theorem State.detach_of_not_inService {p : Fin 3} {s : State} (out : s.ports[p].inService = false) :
    s.detach p = (s, refusal) := by
  rw [State.detach, if_neg (by rw [out]; decide)]

theorem State.hold_of_streaming {p : Fin 3} {s : State} (streaming : s.ports[p].state = .streaming) :
    s.hold p = (s.updPort p fun q =>
      { q with state := .held, holdTimer := some (s.tick + q.pacing.holdMs * 400000) }, .bare .done) := by
  rw [State.hold, if_pos streaming]
  rfl

theorem State.hold_of_not_streaming {p : Fin 3} {s : State} (other : s.ports[p].state ≠ .streaming) :
    s.hold p = (s, refusal) := by
  rw [State.hold, if_neg other]

theorem State.release_of_held {p : Fin 3} {s : State} (held : s.ports[p].state = .held) :
    s.release p = (s.updPort p fun q => { q with state := .streaming, holdTimer := none }, .bare .done) := by
  rw [State.release, if_pos held]

theorem State.release_of_not_held {p : Fin 3} {s : State} (other : s.ports[p].state ≠ .held) :
    s.release p = (s, refusal) := by
  rw [State.release, if_neg other]

/-- A command whose value is cut at a limit is answered DONE just where it is within the limit (09 R176). -/
theorem Reply.carriedOut_limit (n limit : Nat) (data : List Byte) :
    Reply.carriedOut (decide (limit < n)) data = reply (doneIf (n ≤ limit)) data := by
  by_cases within : n ≤ limit
  · simp [Reply.carriedOut, within, Nat.not_lt.2 within]
  · simp [Reply.carriedOut, within, Nat.lt_of_not_le within]

/-- Credits of different ports do not meet, so the sum in force is that of the port as it stands (09 R171). -/
theorem State.grantCredits_of_inService {p : Fin 3} {s : State} (n : Nat) (service : s.ports[p].inService = true) :
    s.grantCredits p n =
      (s.updPort p fun q => { q with credits := min (q.credits + n) 65535 },
       reply (doneIf (s.ports[p].credits + n ≤ 65535)) (toBytes 2 (min (s.ports[p].credits + n) 65535))) := by
  rw [State.grantCredits, if_pos service]
  exact congrArg (Prod.mk _) (Reply.carriedOut_limit _ _ _)

theorem State.grantCredits_of_not_inService {p : Fin 3} {s : State} (n : Nat) (out : s.ports[p].inService = false) :
    s.grantCredits p n = (s, refusal) := by
  rw [State.grantCredits, if_neg (by rw [out]; decide)]

/-- A hold timer that has run out ends HELD (09 R168). -/
theorem State.holdExpiry_of_due {p : Fin 3} {s : State} {t : Nat} (running : s.running = true)
    (held : s.ports[p].state = .held) (timer : s.ports[p].holdTimer = some t) (due : t ≤ s.tick) :
    s.holdExpiry p = s.updPort p fun q =>
      ({ q with state := .streaming, holdTimer := none } : Port).notify
        (.holdExpired q.pacing.holdMs q.queue.length) := by
  rw [State.holdExpiry, if_pos (by simp [-Fin.getElem_fin, running, held, timer, due])]

/-- Settles O4: each command is taken (`exec_command`), and its action turns on the state of the port. -/
theorem detachHoldReleaseAndGrantCredits : Obligations.DetachHoldReleaseAndGrantCredits := by
  intro p n s
  refine ⟨fun holds h => ?_, fun holds h => ?_, fun holds h => ?_, fun holds h => ?_, fun holds h => ?_,
    fun holds h => ?_, fun t running held timer due => ?_, fun holds h => ?_, fun holds h => ?_⟩
  · rw [exec_command holds rfl, State.detach_of_inService h, State.detachPort_eq]
  · rw [exec_command holds rfl, State.detach_of_not_inService h]
  · rw [exec_command holds rfl, State.hold_of_streaming h]
  · rw [exec_command holds rfl, State.hold_of_not_streaming h]
  · rw [exec_command holds rfl, State.release_of_held h]
  · rw [exec_command holds rfl, State.release_of_not_held h]
  · exact congrArg Host.Outcome.next (State.holdExpiry_of_due running held timer due)
  · rw [exec_command holds rfl, State.grantCredits_of_inService n h]
  · rw [exec_command holds rfl, State.grantCredits_of_not_inService n h]

/-! ## Set Quota (08 R152, R153) -/

theorem State.setQuota_of_full {p : Fin 3} {n : Nat} {s : State}
    (full : 16384 < max (roundQuota n) s.ports[p].queue.length + s.otherCommitments p) :
    s.setQuota p n = (s, .bare .refusedCapacity) := by
  exact if_pos full

theorem State.setQuota_of_room {p : Fin 3} {n : Nat} {s : State}
    (room : max (roundQuota n) s.ports[p].queue.length + s.otherCommitments p ≤ 16384) :
    s.setQuota p n =
      let t := s.updPort p fun q => { q with quota := roundQuota n }
      (t, reply (doneIf (roundQuota n = n)) (t.quotaBytes p)) := by
  refine Eq.trans (if_neg (Nat.not_lt.2 room)) ?_
  exact congrArg (Prod.mk _) (Reply.carriedOut_ne _ n _)

/-- The quota of a port that has been given one. -/
theorem State.quotaBytes_set (p : Fin 3) (q : Nat) (s : State) (t : State)
    (ht : t = s.updPort p fun x => { x with quota := q }) : t.quotaBytes p = toBytes 2 q ++ toBytes 2 t.quotaSum := by
  have quota : t.ports[p].quota = q := by rw [ht, State.updPort_same]; rfl
  rw [State.quotaBytes, quota]

/-- The commitments are a port's own and those of the other two (08 R152). -/
theorem State.commitment_add_others (p : Fin 3) (s : State) :
    s.ports[p].commitment + s.otherCommitments p = s.commitmentSum := by
  unfold State.otherCommitments State.commitmentSum
  match p with
  | 0 => show s.ports[0].commitment + (_ - s.ports[0].commitment) = _; omega
  | 1 => show s.ports[1].commitment + (_ - s.ports[1].commitment) = _; omega
  | 2 => show s.ports[2].commitment + (_ - s.ports[2].commitment) = _; omega

/-! ## Parts of a Reset Port (09 R181) -/

/-- A block that has not taken its part of a Reset Port takes it: it acts, and the last part forms the reply. -/
theorem State.takePart_of_open {p : Fin 3} {isTaken : ResetParts → Bool} {mark : ResetParts → ResetParts}
    {act : State → State} {s : State} {x : ResetParts} (running : s.running = true)
    (parts : s.ports[p].resetParts = some x) (isOpen : isTaken x = false) :
    s.takePart p isTaken mark act = (act s).partTaken p (mark x) := by
  rw [State.takePart, parts]
  dsimp only
  rw [if_pos (by simp [running, isOpen])]
  rfl

/-- Settles O5: Set Quota turns on the room in the store, the pool's part on the same room. -/
theorem setQuotaKeepsToTheStore : Obligations.SetQuotaKeepsToTheStore := by
  intro p n s
  refine ⟨?_, ?_, rfl, ?_⟩
  · intro holds q quota
    obtain rfl : q = roundQuota n := quota
    rw [exec_command holds rfl]
    constructor
    · intro full
      rw [State.setQuota_of_full full]
    · intro room t ht
      rw [State.setQuota_of_room room, ← ht]
      dsimp only
      rw [State.quotaBytes_set p _ s t ht]
  · intro x running parts isOpen
    exact congrArg Host.Outcome.next (State.takePart_of_open running parts isOpen)
  · rintro c rfl
    exact s.commitment_add_others p

/-- A port that holds a Reset Port for its own part has no parts of one yet. -/
theorem State.resetPortPart_of_holds {p : Fin 3} {s : State} (holds : s.Holds p .resetPort) :
    s.resetPortPart p =
      State.updPort p
        (fun q => ({ q with cause := .reset, lossTotal := 0, counters := .zero } : Port).updParts fun c =>
          { c with parts := some { engine := false, marker := false, pool := false } })
        (if s.ports[p].inService then s.detachPort p .reset else s) := by
  obtain ⟨running, held⟩ := holds
  obtain ⟨c, takeable, parsed⟩ := Option.bind_eq_some_iff.1 held
  have noParts : c.parts = none := by
    by_contra some_
    rw [if_neg (by simpa using some_)] at parsed
    cases parsed
  rw [if_pos (by simp [noParts])] at parsed
  rw [State.resetPortPart, if_pos]
  simp [-Fin.getElem_fin, running, Port.resetParts, takeable, noParts, parsed]

/-- Settles O8: the port's part is `State.resetPortPart_of_holds`, the parts of the engine and of the marker unit are
`State.takePart_of_open`. -/
theorem resetPortIsTakenInParts : Obligations.ResetPortIsTakenInParts := by
  intro p s
  refine ⟨?_, ?_, ?_⟩
  · rintro holds _ rfl
    exact congrArg Host.Outcome.next (State.resetPortPart_of_holds holds)
  · rintro x _ running parts isOpen rfl
    exact congrArg Host.Outcome.next (State.takePart_of_open running parts isOpen)
  · intro x running parts isOpen
    exact congrArg Host.Outcome.next (State.takePart_of_open running parts isOpen)

end Sys2Proof.Machine

/-! PROOF. Layouts (11): fields that follow one another from a first byte on are laid out by the bytes of their numbers,
so a layout is proved by writing the bytes as those of its fields. -/

namespace Sys2Proof.Machine

/-! ## Numbers in bytes -/

/-- The bytes of a number hold no more of it than they have room for. -/
theorem toBytes_mod {k m : Nat} (h : k ≤ m) (n : Nat) : toBytes k (n % 256 ^ m) = toBytes k n := by
  induction k with
  | zero => rfl
  | succ k ih =>
    have split : 256 ^ m = 256 ^ k * 256 ^ (m - k) := by rw [← pow_add]; congr 1; omega
    have low : 256 ∣ 256 ^ (m - k) := dvd_pow_self 256 (by omega)
    have digit : n % 256 ^ m / 256 ^ k % 256 = n / 256 ^ k % 256 := by
      rw [split, Nat.mod_mul_right_div_self, Nat.mod_mod_of_dvd _ low]
    have byte : BitVec.ofNat 8 (n % 256 ^ m / 256 ^ k) = BitVec.ofNat 8 (n / 256 ^ k) :=
      BitVec.eq_of_toNat_eq (by simpa [BitVec.toNat_ofNat] using digit)
    rw [toBytes, toBytes, byte, ih (by omega)]

/-- A number that is not below zero has the same bytes signed as unsigned. -/
theorem toBytesInt_natCast (k n : Nat) : toBytesInt k n = toBytes k n := by
  rw [toBytesInt, ← Int.natCast_mod, Int.toNat_natCast, toBytes_mod le_rfl]

@[simp] theorem toBytesInt_length (k : Nat) (z : Int) : (toBytesInt k z).length = k := toBytes_length _ _

/-- A signed number is read back from where it was laid out, in two's complement (11). -/
theorem numberAt_toBytesInt (before after : List Byte) (k : Nat) (z : Int) :
    (numberAt before.length k (before ++ (toBytesInt k z ++ after)) : Int) = z % 256 ^ k := by
  have pos : (0 : Int) < 256 ^ k := by positivity
  have bounded : (z % (256 ^ k : Nat)).toNat < 256 ^ k := by
    have := Int.emod_lt_of_pos z pos
    have := Int.emod_nonneg z pos.ne'
    zify
    omega
  rw [toBytesInt, numberAt_toBytes, Nat.mod_eq_of_lt bounded, Int.toNat_of_nonneg]
  · push_cast; rfl
  · push_cast; exact Int.emod_nonneg z pos.ne'

theorem toBytes_one (n : Nat) : toBytes 1 n = [byte n] := by simp [toBytes, byte]

/-- Zeros are the bytes of the number zero. -/
theorem toBytes_zero (k : Nat) : toBytes k 0 = List.replicate k 0 := by
  induction k with
  | zero => rfl
  | succ k ih => simp [toBytes, ih, List.replicate_succ]

/-! ## Fields one after another -/

/-- The bytes of some fields, one field after another. -/
def bytesOf : List Field → List Byte
  | [] => []
  | f :: fs => toBytesInt f.2.1 f.2.2 ++ bytesOf fs

@[simp] theorem bytesOf_nil : bytesOf [] = [] := rfl

theorem bytesOf_signed (i k : Nat) (z : Int) (fs : List Field) :
    bytesOf ((i, k, z) :: fs) = toBytesInt k z ++ bytesOf fs := rfl

@[simp] theorem bytesOf_nat (i k n : Nat) (fs : List Field) :
    bytesOf ((i, k, (n : Int)) :: fs) = toBytes k n ++ bytesOf fs := by
  rw [bytesOf_signed, toBytesInt_natCast]

@[simp] theorem bytesOf_zero (i k : Nat) (fs : List Field) :
    bytesOf ((i, k, 0) :: fs) = List.replicate k 0 ++ bytesOf fs := by
  rw [← toBytes_zero, ← bytesOf_nat i]
  rfl

@[simp] theorem bytesOf_append (fs gs : List Field) : bytesOf (fs ++ gs) = bytesOf fs ++ bytesOf gs := by
  induction fs with
  | nil => rfl
  | cons f fs ih => simp [bytesOf, ih]

/-- The byte after some fields that follow one another from a byte on; none where they do not. -/
def endOf : Nat → List Field → Option Nat
  | i, [] => some i
  | i, f :: fs => if f.1 = i then endOf (i + f.2.1) fs else none

theorem endOf_append (i : Nat) (fs gs : List Field) : endOf i (fs ++ gs) = (endOf i fs).bind fun j => endOf j gs := by
  induction fs generalizing i with
  | nil => rfl
  | cons f fs ih =>
    simp only [List.cons_append, endOf]
    split
    · exact ih _
    · rfl

/-- Fields that follow one another after some bytes hold their numbers there. -/
theorem numbers_of_bytesOf (before after : List Byte) (fs : List Field) {n : Nat}
    (follow : endOf before.length fs = some n) :
    (∀ f ∈ fs, (numberAt f.1 f.2.1 (before ++ (bytesOf fs ++ after)) : Int) = f.2.2 % 256 ^ f.2.1)
      ∧ n = before.length + (bytesOf fs).length := by
  induction fs generalizing before with
  | nil =>
    obtain rfl : before.length = n := Option.some.inj follow
    simp
  | cons f fs ih =>
    obtain ⟨i, k, z⟩ := f
    rw [endOf] at follow
    split at follow
    case isFalse => cases follow
    case isTrue start =>
      obtain rfl : i = before.length := start
      have next : endOf (before ++ toBytesInt k z).length fs = some n := by simpa using follow
      obtain ⟨numbers, length⟩ := ih _ next
      refine ⟨?_, ?_⟩
      · intro f hf
        obtain rfl | hf := List.mem_cons.1 hf
        · rw [bytesOf_signed, List.append_assoc]
          exact numberAt_toBytesInt _ _ _ _
        · rw [bytesOf_signed]
          simpa using numbers f hf
      · rw [length, bytesOf_signed]
        simp [Nat.add_assoc]

/-- Bytes that are those of fields from byte 0 on, and then some more, are laid out in the fields. -/
theorem laysOut_prefix {bs after : List Byte} {n m : Nat} {fs : List Field} (eq : bs = bytesOf fs ++ after)
    (follow : endOf 0 fs = some m) (length : bs.length = n) : LaysOut bs n fs := by
  refine ⟨length, ?_⟩
  rw [eq]
  exact (numbers_of_bytesOf [] after fs follow).1

/-- Bytes that are those of fields from byte 0 on are laid out in the fields. -/
theorem laysOut_of_eq {bs : List Byte} {n : Nat} {fs : List Field} (eq : bs = bytesOf fs)
    (follow : endOf 0 fs = some n) : LaysOut bs n fs := by
  have length := (numbers_of_bytesOf [] [] fs follow).2
  refine laysOut_prefix (after := []) (by simpa using eq) follow ?_
  rw [eq, length]
  simp

/-- Bytes laid out in some fields are laid out in any of them. -/
theorem LaysOut.of_subset {bs : List Byte} {n : Nat} {fs gs : List Field} (h : LaysOut bs n gs) (sub : fs ⊆ gs) :
    LaysOut bs n fs :=
  ⟨h.1, fun f hf => h.2 f (sub hf)⟩

/-! ## Single bytes -/

theorem flagByte_eq (b : Bool) : flagByte b = byte b.toNat := by cases b <;> rfl

/-- Flags in a byte are the number whose bits they are (11). -/
theorem flagBits_eq (flags : List Bool) : flagBits flags = byte (bitsNat flags) := by
  induction flags with
  | nil => rfl
  | cons b bs ih =>
    have double : ∀ n : Nat, (byte n <<< 1) ||| flagByte b = byte (b.toNat + 2 * n) := by
      intro n
      have doubled : byte n <<< 1 = byte (2 * n) := by
        apply BitVec.eq_of_toNat_eq
        simp only [byte, BitVec.toNat_shiftLeft, BitVec.toNat_ofNat, Nat.shiftLeft_eq]
        omega
      rw [doubled]
      cases b
      · simp [flagByte]
      · apply BitVec.eq_of_toNat_eq
        have odd : ∀ m : Nat, 2 * m ||| 1 = 2 * m + 1 := fun m => by
          rw [← Nat.two_pow_add_eq_or_of_lt (i := 1) (by decide)]
        have even : 2 * n % 256 = 2 * (n % 128) := by omega
        simp only [byte, flagByte, if_true, BitVec.toNat_or, BitVec.toNat_ofNat]
        simp [even, odd]
        omega
    rw [flagBits, ih, double]
    rfl

theorem byte_toNat (b : Byte) : byte b.toNat = b := BitVec.ofNat_toNat _ _ |>.trans (by simp)

theorem padTo_eq {k : Nat} {bs : List Byte} (h : bs.length ≤ k) :
    padTo k bs = bs ++ List.replicate (k - bs.length) 0 := by
  rw [padTo, List.take_append, List.take_of_length_le h, List.take_replicate]
  congr 2
  omega

/-! ## Stamps (11.1) -/

/-- The last byte of a stamp holds the class in its low three bits and the flags above them. -/
theorem stampByte_eq (q : Quality) (flags : List Bool) (four : flags.length = 4) :
    byte q.code ||| (flagBits flags <<< 3) = byte (q.code + 8 * bitsNat flags) := by
  match flags, four with
  | [a, b, c, d], _ => cases q <;> revert a b c d <;> decide

theorem Stamp.bytes_eq (st : Stamp) (i : Nat) : st.bytes = bytesOf (stampFields i st) := by
  have last := stampByte_eq st.quality [st.invalid, st.suspect, st.coarse, st.clamped] rfl
  have cast : ((st.quality.code : Int) + 8 * (bitsNat [st.invalid, st.suspect, st.coarse, st.clamped] : Nat))
      = ((st.quality.code + 8 * bitsNat [st.invalid, st.suspect, st.coarse, st.clamped] : Nat) : Int) := by
    push_cast; rfl
  simp only [stampFields, cast, bytesOf_nat, bytesOf_nil, Stamp.bytes, last, toBytes_one, byte_toNat,
    List.append_assoc, List.cons_append, List.nil_append]

theorem endOf_stampFields (i : Nat) (st : Stamp) : endOf i (stampFields i st) = some (i + 12) := by
  simp [endOf, Nat.add_assoc]

@[simp] theorem Stamp.bytes_length (st : Stamp) : st.bytes.length = 12 := by simp [Stamp.bytes]

end Sys2Proof.Machine

/-! PROOF. The layouts of records, notices, replies and settings (11.2 to 11.5): the bytes of each are those of its
fields. -/

namespace Sys2Proof.Machine

/-- The parts of a table of fields are laid out one after another. -/
theorem bytesOf_fields_cons (part : List Field) (parts : List (List Field)) :
    bytesOf (fields (part :: parts)) = bytesOf part ++ bytesOf (fields parts) := bytesOf_append _ _

theorem bytesOf_fields_nil : bytesOf (fields []) = [] := rfl

/-! ## Records (11.2) -/

theorem ArrivalRecord.bytes_eq (r : ArrivalRecord) :
    padTo 32 r.bytes = bytesOf (recordFields (.arrival r)) := by
  rw [padTo_eq (by simp [ArrivalRecord.bytes])]
  dsimp only [recordFields]
  simp only [bytesOf_fields_cons, bytesOf_fields_nil, ← Stamp.bytes_eq]
  simp only [bytesOf_nat, bytesOf_zero, bytesOf_nil,
    bytesOf_signed _ _ (r.lag.getD 0)]
  simp [toBytes_one, ArrivalRecord.bytes, flagBits_eq]

theorem GapRecord.bytes_eq (r : GapRecord) : padTo 32 r.bytes = bytesOf (recordFields (.gap r)) := by
  rw [padTo_eq (by simp [GapRecord.bytes])]
  dsimp only [recordFields]
  simp only [bytesOf_fields_cons, bytesOf_fields_nil, ← Stamp.bytes_eq]
  simp [toBytes_one, GapRecord.bytes, flagBits_eq]

theorem UnmappedRecord.bytes_eq (r : UnmappedRecord) : padTo 32 r.bytes = bytesOf (recordFields (.unmapped r)) := by
  rw [padTo_eq (by simp [UnmappedRecord.bytes])]
  dsimp only [recordFields]
  simp only [bytesOf_fields_cons, bytesOf_fields_nil, ← Stamp.bytes_eq]
  simp [toBytes_one, UnmappedRecord.bytes, flagBits_eq]

theorem MarkerRecord.bytes_eq (r : MarkerRecord) : padTo 32 r.bytes = bytesOf (recordFields (.marker r)) := by
  rw [padTo_eq (by simp [MarkerRecord.bytes])]
  dsimp only [recordFields]
  simp only [bytesOf_fields_cons, bytesOf_fields_nil, ← Stamp.bytes_eq]
  simp [toBytes_one, MarkerRecord.bytes]

theorem Record.laysOut (r : Record) : LaysOut (Item.record r).bytes 32 (recordFields r) := by
  have follow : endOf 0 (recordFields r) = some 32 := by cases r <;> rfl
  refine laysOut_of_eq ?_ follow
  cases r
  case arrival r => exact r.bytes_eq
  case gap r => exact r.bytes_eq
  case unmapped r => exact r.bytes_eq
  case marker r => exact r.bytes_eq

theorem Heartbeat.laysOut (h : Heartbeat) :
    LaysOut (Item.heartbeat h).bytes 32 (fields [stampFields 0 h.time,
      [(12, 2, h.age), (14, 2, h.queueLen), (16, 2, h.quota), (18, 1, h.lagging.toNat), (19, 4, h.lossTotal),
       (23, 9, 0)]]) := by
  refine laysOut_of_eq ?_ rfl
  rw [Item.bytes, padTo_eq (by simp [Heartbeat.bytes])]
  simp only [bytesOf_fields_cons, bytesOf_fields_nil, ← Stamp.bytes_eq]
  simp [toBytes_one, Heartbeat.bytes, flagByte_eq]

/-! ## Notices (11.3) -/

/-- A LINE notice with its last field where it stands. -/
def lineFields (repeats : Nat) (l : Fin 8) (old new : LineState) (all : Vector LineState 8) : List Field :=
  [(0, 2, (repeats : Int)), (2, 1, l.val), (3, 1, old.code), (4, 1, new.code)]
    ++ (List.finRange 8).map (fun k => (5 + k.val, 1, (all[k].code : Int))) ++ [(13, 19, 0)]

theorem Notice.bytes_line (repeats : Nat) (l : Fin 8) (old new : LineState) (all : Vector LineState 8) :
    (Item.notice { body := .line l old new all, repeats := repeats }).bytes
      = bytesOf (lineFields repeats l old new all) := by
  obtain ⟨⟨xs⟩, eight⟩ := all
  match xs, eight with
  | [a, b, c, d, e, f, g, h], _ =>
    rw [Item.bytes, padTo_eq (by simp [Notice.bytes])]
    simp [Notice.bytes, lineFields, List.finRange_succ, bytesOf_nat, toBytes_one]

theorem Notice.laysOut (n : Notice) : LaysOut (Item.notice n).bytes 32 (noticeFields n) := by
  obtain ⟨body, repeats⟩ := n
  cases body
  case line l old new all =>
    refine LaysOut.of_subset (laysOut_of_eq (Notice.bytes_line repeats l old new all) rfl) ?_
    intro f hf
    simp only [noticeFields, lineFields, fields, List.flatten_cons, List.flatten_nil, List.append_nil,
      List.mem_append, List.mem_cons, List.not_mem_nil, or_false] at hf ⊢
    tauto
  case timescale kind old new amount label after =>
    refine laysOut_of_eq ?_ rfl
    rw [Item.bytes, padTo_eq (by simp [Notice.bytes])]
    dsimp only [noticeFields]
    simp only [bytesOf_nat, bytesOf_zero, bytesOf_nil, bytesOf_signed _ _ amount]
    simp [toBytes_one, Notice.bytes, flagBits_eq, byte_toNat]
  case quality before after suspect =>
    refine laysOut_of_eq ?_ rfl
    rw [Item.bytes, padTo_eq (by simp [Notice.bytes])]
    dsimp only [noticeFields]
    simp only [bytesOf_nat, bytesOf_zero, bytesOf_nil]
    simp [toBytes_one, Notice.bytes, flagByte_eq]
  case invalid cause =>
    refine laysOut_of_eq ?_ rfl
    rw [Item.bytes, padTo_eq (by simp [Notice.bytes])]
    dsimp only [noticeFields]
    simp only [bytesOf_nat, bytesOf_zero, bytesOf_nil, bytesOf_signed _ _ (if cause.isSome then (0 : Int) else 1)]
    cases cause <;> simp [toBytes_one, Notice.bytes, flagBits_eq, byte, toBytesInt]
  case reference kind state pulse =>
    cases pulse with
    | none =>
      refine laysOut_of_eq ?_ rfl
      rw [Item.bytes, padTo_eq (by simp [Notice.bytes])]
      dsimp only [noticeFields]
      simp only [bytesOf_fields_cons, bytesOf_fields_nil, bytesOf_nat, bytesOf_zero, bytesOf_nil,
        bytesOf_signed _ _ (Option.getD _ (0 : Int))]
      simp [toBytes_one, Notice.bytes, flagBits_eq]
    | some q =>
      refine laysOut_of_eq ?_ rfl
      rw [Item.bytes, padTo_eq (by simp [Notice.bytes])]
      dsimp only [noticeFields]
      simp only [bytesOf_fields_cons, bytesOf_fields_nil, ← Stamp.bytes_eq]
      simp only [bytesOf_nat, bytesOf_zero, bytesOf_nil,
        bytesOf_signed _ _ (Option.getD _ (0 : Int))]
      simp [toBytes_one, Notice.bytes, flagBits_eq]
  case settings record port =>
    refine laysOut_of_eq ?_ rfl
    rw [Item.bytes, padTo_eq (by simp [Notice.bytes])]
    dsimp only [noticeFields]
    simp only [bytesOf_nat, bytesOf_zero, bytesOf_nil]
    cases record <;> simp [toBytes_one, Notice.bytes, SettingsRecord.codes]
  case holdExpired timeout queueLen =>
    refine laysOut_of_eq ?_ rfl
    rw [Item.bytes, padTo_eq (by simp [Notice.bytes])]
    dsimp only [noticeFields]
    simp only [bytesOf_nat, bytesOf_zero, bytesOf_nil]
    simp [Notice.bytes]
  case loss count first last total =>
    refine laysOut_of_eq ?_ rfl
    rw [Item.bytes, padTo_eq (by simp [Notice.bytes])]
    dsimp only [noticeFields]
    simp only [bytesOf_fields_cons, bytesOf_fields_nil, ← Stamp.bytes_eq]
    simp only [bytesOf_nat, bytesOf_nil]
    simp [Notice.bytes]

end Sys2Proof.Machine

/-! PROOF. The layouts of replies and settings (11.4, 11.5): the bytes of each are those of its fields. -/

namespace Sys2Proof.Machine

/-! ## Settings (11.4) -/

theorem LineSettings.laysOut (l : Fin 8) (r : LineSettings) :
    LaysOut (r.bytes l) 6 [(0, 1, l.val), (1, 1, r.enable.toNat), (2, 2, r.comp.toNat), (4, 2, r.quietMs)] := by
  refine laysOut_of_eq ?_ rfl
  simp [LineSettings.bytes, toBytes_one, flagByte_eq]

theorem MarkerSettings.laysOut (m : Nat) (r : MarkerSettings) :
    LaysOut (byte m :: r.bytes) 5 [(0, 1, m), (1, 1, r.select.code), (2, 1, r.width.val), (3, 2, r.comp.toNat)] := by
  refine laysOut_of_eq ?_ rfl
  simp [MarkerSettings.bytes, toBytes_one]

theorem DisciplineSettings.laysOut (r : DisciplineSettings) :
    LaysOut r.bytes 16 [(0, 4, r.slewLimit), (4, 1, r.a), (5, 1, r.b), (6, 1, r.window.val),
      (7, 1, r.lockThreshold.val), (8, 1, r.lockCount), (9, 1, r.reacquireCount), (10, 1, r.stepThreshold.val),
      (11, 1, r.holdoverLimit.val), (12, 1, r.calInterval.val), (13, 1, r.secpWidth.val),
      (14, 1, r.lockoSource.code), (15, 1, r.polarity.code)] := by
  refine laysOut_of_eq ?_ rfl
  simp [DisciplineSettings.bytes, toBytes_one]

/-! ## Channels (11.4, 11.5) -/

theorem SeqFormat.bytes_eq (f : SeqFormat) :
    f.bytes = [byte (formatCodes f).1, byte (formatCodes f).2.1, byte (formatCodes f).2.2.1,
      byte (formatCodes f).2.2.2] := by
  cases f <;> simp [SeqFormat.bytes, byte]

theorem Scope.codes_eq (sc : Scope) : sc.codes = scopeCodes sc := by cases sc <;> rfl

theorem Entry.keyBytes_eq (e : Entry) :
    e.keyBytes = [byte (scopeCodes e.scope).1, byte (scopeCodes e.scope).2] ++ toBytes 4 e.addr.toNat
      ++ toBytes 2 e.port.toNat := by
  rw [Entry.keyBytes, Scope.codes_eq]

theorem Entry.writtenBytes_laysOut (i : Nat) (e : Entry) :
    LaysOut (e.writtenBytes i) 16
      [(0, 2, i), (2, 1, (scopeCodes e.scope).1), (3, 1, (scopeCodes e.scope).2), (4, 4, e.addr.toNat),
       (8, 2, e.port.toNat), (10, 1, (formatCodes e.fmt).1), (11, 1, (formatCodes e.fmt).2.1),
       (12, 1, (formatCodes e.fmt).2.2.1), (13, 1, (formatCodes e.fmt).2.2.2), (14, 2, e.gapUs)] := by
  refine laysOut_of_eq ?_ rfl
  simp only [bytesOf_nat, bytesOf_nil, Entry.writtenBytes, Entry.keyBytes_eq, SeqFormat.bytes_eq, toBytes_one]
  simp

/-- The time and epoch of a deadline, or zeros. -/
def deadlineFields : Option Deadline → List Field
  | some d => [(29, 5, d.sec), (34, 4, d.ns), (38, 1, d.sub), (39, 1, d.epoch.toNat)]
  | none => [(29, 11, 0)]

theorem deadlineBytes_eq (d : Option Deadline) : deadlineBytes d = bytesOf (deadlineFields d) := by
  cases d with
  | none => simp [deadlineBytes, deadlineFields, toBytes_zero]
  | some d => simp [deadlineBytes, deadlineFields, toBytes_one, byte_toNat]

theorem SeqFormat.present_eq (f : SeqFormat) :
    f.present = (f != .none, f matches .message _ _ _) := by
  cases f <;> simp [SeqFormat.present]

theorem levels_bytes (v : Vector Level 3) :
    v.toList.map (fun l => byte l.code) = [byte v[0].code, byte v[1].code, byte v[2].code] := by
  obtain ⟨⟨l⟩, three⟩ := v
  match l, three with
  | [_, _, _], _ => rfl

theorem slotCounts_eq (xs : List Slot) :
    slotCounts xs = [xs.countP fun x => x matches .vacant, xs.countP fun x => x matches .seen _ _,
      xs.countP fun x => x matches .paired _ _, xs.countP fun x => x matches .lost,
      xs.countP fun x => x matches .recovered] := by
  have vacant : Slot.isVacant = fun x => x matches .vacant := by
    funext x; cases x <;> simp [Slot.isVacant]
  have lost : Slot.isLost = fun x => x matches .lost := by
    funext x; cases x <;> simp [Slot.isLost]
  simp only [slotCounts, vacant, lost] <;> rfl

/-- The ten counters as Read Channel lays them out. -/
theorem counters_bytes (c : ChannelCounters) :
    (c.toList.map (toBytes 4)).flatten
      = bytesOf ((List.range 10).map fun k => (46 + 4 * k, 4, ((countersOf c)[k]?.getD 0 : Nat))) := by
  have ten : List.range 10 = [0, 1, 2, 3, 4, 5, 6, 7, 8, 9] := by decide
  simp only [ten, List.map_cons, List.map_nil, countersOf, ChannelCounters.toList]
  simp

theorem Entry.readBytes_laysOut (i : Nat) (e : Entry) : LaysOut (e.readBytes i) 86 (channelFields i e) := by
  have follow : endOf 0 (channelFields i e) = some 86 := by
    unfold channelFields
    cases e.win.deadline <;> rfl
  refine laysOut_of_eq ?_ follow
  change _ = bytesOf (fields [_, deadlineFields e.win.deadline, _, _])
  rw [bytesOf_fields_cons, bytesOf_fields_cons, bytesOf_fields_cons, bytesOf_fields_cons, bytesOf_fields_nil,
    ← counters_bytes, ← deadlineBytes_eq]
  have one : toBytesInt 1 1 = [1] := rfl
  simp only [bytesOf_signed 0 1 1, bytesOf_nat, bytesOf_nil, toBytes_one, one]
  simp only [Entry.readBytes, Entry.keyBytes_eq, SeqFormat.bytes_eq, flagBits_eq, SeqFormat.present_eq, levels_bytes,
    slotCounts_eq]
  simp only [List.map_cons, List.map_nil, List.append_assoc, List.cons_append, List.nil_append, List.append_nil] <;> rfl

/-! ## Query Time and Read Marker Log (11.5) -/

theorem State.timeBytes_laysOut (s : State) : LaysOut s.timeBytes 16 (timeFields s.disc) := by
  refine laysOut_of_eq ?_ rfl
  dsimp only [timeFields]
  simp only [bytesOf_nat, bytesOf_nil, bytesOf_signed _ _ s.disc.rate, bytesOf_signed _ _ s.disc.slew, toBytes_one]
  simp [State.timeBytes, flagBits_eq]

/-- The fields of an entry of the log at byte `i`, zeros where there is none. -/
def logEntryFields (i : Nat) : Option MarkerRecord → List Field
  | some r => fields [[(i, 1, Direction.code r.dir), (i + 1, 4, r.count.toNat)], stampFields (i + 5) r.stamp]
  | none => [(i, 17, 0)]

/-- The bytes of an entry of the log. -/
def logEntryBytes (r : MarkerRecord) : List Byte :=
  byte (Direction.code r.dir) :: toBytes 4 r.count.toNat ++ r.stamp.bytes

theorem bytesOf_logEntryFields_some (i : Nat) (r : MarkerRecord) :
    bytesOf (logEntryFields i (some r)) = logEntryBytes r := by
  dsimp only [logEntryFields]
  simp only [bytesOf_fields_cons, bytesOf_fields_nil, ← Stamp.bytes_eq]
  simp [logEntryBytes, toBytes_one]

theorem bytesOf_logEntryFields_none (i : Nat) :
    bytesOf (logEntryFields i none) = List.replicate 17 0 := by
  simp only [logEntryFields, bytesOf_zero, bytesOf_nil, List.append_nil]

theorem logEntryBytes_length (r : MarkerRecord) : (logEntryBytes r).length = 17 := by simp [logEntryBytes]

/-- Bytes beyond the length are cut. -/
theorem padTo_append {k : Nat} {bs : List Byte} (h : bs.length = k) (cs : List Byte) : padTo k (bs ++ cs) = bs := by
  rw [padTo, List.append_assoc, List.take_left' h]

/-- Of the log the first four entries are laid out, with zeros for those it does not hold. -/
theorem padTo_log (before : List Byte) (log : List MarkerRecord) :
    padTo (before.length + 68) (before ++ (log.map logEntryBytes).flatten)
      = before ++ (bytesOf (logEntryFields 14 log[0]?) ++ (bytesOf (logEntryFields 31 log[1]?)
        ++ (bytesOf (logEntryFields 48 log[2]?) ++ bytesOf (logEntryFields 65 log[3]?)))) := by
  match log with
  | [] | [_] | [_, _] | [_, _, _] =>
    rw [padTo_eq (by simp [logEntryBytes_length])]
    simp [bytesOf_logEntryFields_some, bytesOf_logEntryFields_none, logEntryBytes_length]
  | a :: b :: c :: d :: rest =>
    have four : before ++ ((a :: b :: c :: d :: rest).map logEntryBytes).flatten
        = (before ++ (logEntryBytes a ++ (logEntryBytes b ++ (logEntryBytes c ++ logEntryBytes d))))
          ++ (rest.map logEntryBytes).flatten := by simp
    rw [four, padTo_append (by simp [logEntryBytes_length])]
    simp [bytesOf_logEntryFields_some]

/-- The fields of the log, its four entries in their order. -/
theorem logFields_eq (m : Fin 4) (y : Marker) :
    logFields m y = fields
      [[(0, 1, m.val), (1, 1, y.settings.select.code), (2, 1, y.settings.width.val), (3, 2, y.settings.comp.toNat),
        (5, 4, y.count.toNat), (9, 4, y.glitches), (13, 1, y.log.length)],
       logEntryFields 14 y.log[0]? ++ (logEntryFields 31 y.log[1]? ++ (logEntryFields 48 y.log[2]? ++
        (logEntryFields 65 y.log[3]? ++ [])))] := rfl

theorem endOf_logEntryFields (i : Nat) (r : Option MarkerRecord) : endOf i (logEntryFields i r) = some (i + 17) := by
  cases r <;> simp [logEntryFields, endOf, fields, Nat.add_assoc]

theorem Marker.logBytes_laysOut (m : Fin 4) (y : Marker) : LaysOut (y.logBytes m) 82 (logFields m y) := by
  have follow : endOf 0 (logFields m y) = some 82 := by
    rw [logFields_eq]
    simp [fields, endOf, endOf_append, endOf_logEntryFields]
  refine laysOut_of_eq ?_ follow
  rw [logFields_eq, bytesOf_fields_cons, bytesOf_fields_cons, bytesOf_fields_nil, bytesOf_append, bytesOf_append,
    bytesOf_append, bytesOf_append]
  refine (padTo_log ([byte m.val] ++ y.settings.bytes ++ toBytes 4 y.count.toNat ++ toBytes 4 y.glitches
    ++ [byte y.log.length]) y.log).trans ?_
  simp [MarkerSettings.bytes, toBytes_one]

/-! ## Read Status (11.5) -/

/-- The elements of a bank in the order of their numbers. -/
theorem toList_eq_map_finRange {α : Type} {n : Nat} (v : Vector α n) : v.toList = (List.finRange n).map fun i => v[i] := by
  apply List.ext_getElem <;> simp

theorem bytesOf_flatMap {α : Type} (f : α → List Field) (xs : List α) :
    bytesOf (xs.flatMap f) = xs.flatMap fun x => bytesOf (f x) := by
  induction xs with
  | nil => rfl
  | cons x xs ih => simp [ih]

/-- The bytes of the elements of a bank are those of their fields. -/
theorem bytesOf_bank {α : Type} {n : Nat} (v : Vector α n) (g : α → List Byte) (f : Fin n → List Field)
    (each : ∀ i : Fin n, bytesOf (f i) = g v[i]) :
    bytesOf ((List.finRange n).flatMap f) = (v.toList.map g).flatten := by
  rw [bytesOf_flatMap, toList_eq_map_finRange, List.map_map, ← List.flatMap_def]
  simp only [each, Function.comp_def]

/-- The fields of a bank follow one another where those of each element do. -/
theorem endOf_bank {n : Nat} (start k : Nat) (f : Fin n → List Field)
    (each : ∀ j : Fin n, endOf (start + k * j.val) (f j) = some (start + k * (j.val + 1))) :
    endOf start ((List.finRange n).flatMap f) = some (start + k * n) := by
  induction n generalizing start with
  | zero => rfl
  | succ n ih =>
    have first : endOf start (f 0) = some (start + k) := by simpa using each 0
    have rest := ih (start + k) (fun j => f j.succ) (fun j => by
      have next := each j.succ
      rw [Fin.val_succ, Nat.mul_add, Nat.mul_one, Nat.add_comm (k * j.val) k, ← Nat.add_assoc] at next
      rw [next, Nat.mul_add k (j.val + 1) 1, Nat.mul_one, Nat.add_assoc, Nat.add_comm k])
    rw [List.finRange_succ, List.flatMap_cons, List.flatMap_map, endOf_append, first, Option.bind_some, rest,
      Nat.mul_add k n 1, Nat.mul_one, Nat.add_assoc, Nat.add_comm k]

theorem endOf_fields_cons {i j : Nat} {part : List Field} {parts : List (List Field)} {n : Option Nat}
    (first : endOf i part = some j) (rest : endOf j (fields parts) = n) : endOf i (fields (part :: parts)) = n := by
  refine (endOf_append i part _).trans ?_
  rw [first]
  exact rest

theorem State.endOf_statusFields (p : Fin 3) (s : State) : endOf 0 (statusFields p s) = some 341 := by
  dsimp only [statusFields]
  rw [List.map_eq_flatMap]
  refine endOf_fields_cons (j := 52) rfl ?_
  refine endOf_fields_cons (endOf_bank 52 1 _ fun m => by simp [endOf, Nat.add_assoc]) ?_
  refine endOf_fields_cons (endOf_bank 56 8 _ fun m => by simp [endOf]; omega) ?_
  refine endOf_fields_cons (endOf_bank 88 17 _ fun l => by simp [endOf]; omega) ?_
  refine endOf_fields_cons (endOf_bank 224 9 _ fun i => by simp [endOf]; omega) ?_
  rfl

theorem State.statusBytes_laysOut (p : Fin 3) (s : State) : LaysOut (s.statusBytes p) 341 (statusFields p s) := by
  refine laysOut_of_eq ?_ (s.endOf_statusFields p)
  have pending : bytesOf ((List.finRange 4).map fun m => (52 + m.val, 1, ((s.markerPending[p][m] : Nat) : Int)))
      = s.markerPending[p].toList.map byte := by
    rw [List.map_eq_flatMap, bytesOf_bank s.markerPending[p] fun n => [byte n]]
    · rw [← List.flatMap_def, ← List.map_eq_flatMap]
    · intro i
      simp [toBytes_one]
  have markers := bytesOf_bank s.markers (fun x => toBytes 4 x.count.toNat ++ toBytes 4 x.glitches)
    (fun m => [(56 + 8 * m.val, 4, (s.markers[m].count.toNat : Int)), (60 + 8 * m.val, 4, (s.markers[m].glitches : Int))])
    (fun m => by simp)
  have lines := bytesOf_bank s.lines (fun x => byte x.state.code :: toBytes 4 x.frameCount ++ toBytes 4 x.damaged
          ++ toBytes 4 x.unmapped ++ toBytes 4 x.coarseCount)
    (fun l => [(88 + 17 * l.val, 1, (s.lines[l].state.code : Int)), (89 + 17 * l.val, 4, (s.lines[l].frameCount : Int)),
      (93 + 17 * l.val, 4, (s.lines[l].damaged : Int)), (97 + 17 * l.val, 4, (s.lines[l].unmapped : Int)),
      (101 + 17 * l.val, 4, (s.lines[l].coarseCount : Int))])
    (fun l => by simp [toBytes_one])
  have interps := bytesOf_bank s.interps (fun x => toBytes 4 x.calibrations ++ toBytes 4 x.busy
          ++ [flagBits [x.table.isSome, x.collection.isSome]])
    (fun i => [(224 + 9 * i.val, 4, (s.interps[i].calibrations : Int)), (228 + 9 * i.val, 4, (s.interps[i].busy : Int)),
      (232 + 9 * i.val, 1, ((bitsNat [s.interps[i].table.isSome, s.interps[i].collection.isSome] : Nat) : Int))])
    (fun i => by simp only [bytesOf_nat, bytesOf_nil, toBytes_one, flagBits_eq]; simp)
  dsimp only [statusFields]
  rw [bytesOf_fields_cons, bytesOf_fields_cons, bytesOf_fields_cons, bytesOf_fields_cons, bytesOf_fields_cons,
    bytesOf_fields_nil, pending, markers, lines, interps]
  have quotas : ((s.ports[0].quota : Int) + s.ports[1].quota + s.ports[2].quota) = (s.quotaSum : Nat) := by
    simp [State.quotaSum]
  simp only [quotas, bytesOf_nat, bytesOf_nil, toBytes_one]
  simp only [State.statusBytes, State.portStatusBytes, flagBits_eq, flagByte_eq, PortCounters.toList, Monitor.complete]
  simp [Config.goodCycles]

end Sys2Proof.Machine

/-! PROOF. Reads, and the commands of the engine and of the marker unit (05, 07, 09 R180): each command's action in the
cases its arguments make, and what the channel table holds after a write. -/

namespace Sys2Proof.Machine

/-! ## Reads (09 R180, 05 R105, 07 R141) -/

theorem State.readChannel_of_lt {i : Nat} (h : i < 512) (s : State) :
    s.readChannel i =
      let t := s.overdue fun k => k = i
      (t, reply .done (match tableGet i t.channels with | none => [0] | some e => e.readBytes i)) := by
  refine (if_neg (by omega)).trans ?_
  dsimp only
  generalize tableGet i (s.overdue fun k => k = i).channels = found
  cases found <;> rfl

theorem State.readChannel_of_le {i : Nat} (h : 512 ≤ i) (s : State) : s.readChannel i = (s, .bare .malformed) :=
  if_pos (by omega)

theorem State.readMarkerLog_of_lt {i : Nat} (h : i < 4) (s : State) :
    s.readMarkerLog i = (s, reply .done (s.markers[i].logBytes ⟨i, h⟩)) := dif_pos h

theorem State.readMarkerLog_of_le {i : Nat} (h : 4 ≤ i) (s : State) : s.readMarkerLog i = (s, .bare .malformed) :=
  dif_neg (by omega)

/-- Settles O7: each command is taken (`exec_command`) and reads; what it reads is laid out by the lemmas of chapter
11.5. -/
theorem readsChangeOnlyWhatTheySay : Obligations.ReadsChangeOnlyWhatTheySay := by
  intro p i s
  refine ⟨fun holds => ?_, ?_, fun holds h => ?_, fun holds h => ?_, fun holds h => ?_, fun holds => ?_,
    s.timeBytes_laysOut, fun e => e.readBytes_laysOut i, fun m y => y.logBytes_laysOut m, s.statusBytes_laysOut p⟩
  · exact exec_command holds rfl
  · rintro holds h _ rfl
    rw [exec_command holds rfl, State.readChannel_of_lt h] <;> rfl
  · rw [exec_command holds rfl, State.readChannel_of_le h]
  · rw [exec_command holds rfl, State.readMarkerLog_of_lt h]
  · rw [exec_command holds rfl, State.readMarkerLog_of_le h]
  · exact exec_command holds rfl

/-! ## Subscriptions (05 R101, R102) -/

/-- A code names a level just where it is 1 for LEADERS or 2 for ALL (05 R101). -/
theorem Level.ofCode_eq_some {l : Nat} (h : l = 1 ∨ l = 2) :
    Level.ofCode l = some (if l = 1 then .leaders else .all) := by
  obtain rfl | rfl := h <;> rfl

theorem Level.ofCode_eq_none {l : Nat} (one : l ≠ 1) (two : l ≠ 2) : Level.ofCode l = Option.none := by
  match l, one, two with
  | 0, _, _ => rfl
  | l + 3, _, _ => rfl

/-- A change of levels over a range is made in every entry of it, after the expiries that are the next events of those
entries (05 R101). -/
theorem State.setLevels_of_range {p : Fin 3} {a b l : Nat} {f : Level → Level → Level} {s : State}
    (range : a ≤ b ∧ b ≤ 511) (level : l = 1 ∨ l = 2) :
    s.setLevels p a b l f =
      let t := s.overdue fun i => a ≤ i && i ≤ b
      ({ t with channels := levelsChanged p a b (f (if l = 1 then .leaders else .all)) t.channels },
       reply .done (toBytes 2 (s.channels.countP fun q => a ≤ q.1 ∧ q.1 ≤ b))) := by
  have inRange (i : Nat) : (decide (a ≤ i) && decide (i ≤ b)) = decide (a ≤ i ∧ i ≤ b) := by simp
  rw [State.setLevels, Level.ofCode_eq_some level]
  refine (if_neg (by omega)).trans ?_
  simp only [inRange, decide_eq_true_eq] <;> rfl

theorem State.setLevels_malformed {p : Fin 3} {a b l : Nat} {f : Level → Level → Level} {s : State}
    (bad : b < a ∨ 511 < b ∨ (l ≠ 1 ∧ l ≠ 2)) : s.setLevels p a b l f = (s, .bare .malformed) := by
  rw [State.setLevels]
  by_cases level : l = 1 ∨ l = 2
  · rw [Level.ofCode_eq_some level]
    exact if_pos (by omega)
  · rw [Level.ofCode_eq_none (by omega) (by omega)]

theorem subscribed_eq {l : Nat} (level : l = 1 ∨ l = 2) :
    subscribed (if l = 1 then .leaders else .all) = levelAfter true l := by
  obtain rfl | rfl := level <;> rfl

theorem unsubscribed_eq {l : Nat} (level : l = 1 ∨ l = 2) :
    unsubscribed (if l = 1 then .leaders else .all) = levelAfter false l := by
  funext before
  obtain rfl | rfl := level <;> cases before <;> rfl

/-- Settles O9: both commands change levels over a range (`State.setLevels_of_range`), by what each makes of a level. -/
theorem subscriptionsAreTheCallingPorts : Obligations.SubscriptionsAreTheCallingPorts := by
  rintro p a b l x y s _ rfl
  refine ⟨?_, ?_, ?_, ?_⟩
  · rintro ⟨ab, b511, level⟩ _ rfl
    constructor
    · intro holds
      rw [exec_command holds rfl, State.setLevels_of_range ⟨ab, b511⟩ level, subscribed_eq level]
    · intro holds
      rw [exec_command holds rfl, State.setLevels_of_range ⟨ab, b511⟩ level, unsubscribed_eq level]
  · intro bad
    constructor
    · intro holds
      rw [exec_command holds rfl, State.setLevels_malformed bad]
    · intro holds
      rw [exec_command holds rfl, State.setLevels_malformed bad]
  · intro holds
    exact exec_command holds rfl
  · intro holds
    exact exec_command holds rfl

/-! ## Codes of scopes and formats (11.6) -/

theorem Scope.ofCodes_iff (kind num : Nat) (sc : Scope) :
    Scope.ofCodes kind num = some sc ↔ scopeCodes sc = (kind, num) := by
  unfold Scope.ofCodes
  constructor
  · intro named
    split at named
    case isTrue pair =>
      split at named
      case isTrue => cases named; simp [pair]
      case isFalse => cases named
    case isFalse =>
      split at named
      case isTrue line =>
        split at named
        case isTrue => cases named; simp [line]
        case isFalse => cases named
      case isFalse => cases named
  · intro codes
    cases sc with
    | pair p => obtain ⟨rfl, rfl⟩ := Prod.mk.inj codes; simp
    | line l => obtain ⟨rfl, rfl⟩ := Prod.mk.inj codes; simp

theorem ByteOrder.ofCode_iff (ord : Nat) (o : ByteOrder) : ByteOrder.ofCode ord = some o ↔ o.code = ord := by
  match ord with
  | 0 => cases o <;> simp [ByteOrder.ofCode, ByteOrder.code]
  | 1 => cases o <;> simp [ByteOrder.ofCode, ByteOrder.code]
  | n + 2 => cases o <;> simp [ByteOrder.ofCode, ByteOrder.code]

theorem SeqFormat.ofCodes_iff (mode off ord cnt : Nat) (f : SeqFormat) :
    SeqFormat.ofCodes mode off ord cnt = some f ↔
      ∃ o : ByteOrder, o.code = ord ∧ (mode = 0 ∧ f = .none ∨ mode = 1 ∧ f = .packet (BitVec.ofNat 8 off) o
        ∨ mode = 2 ∧ f = .message (BitVec.ofNat 8 off) o (BitVec.ofNat 8 cnt)) := by
  simp only [SeqFormat.ofCodes, Option.bind_eq_some_iff, ByteOrder.ofCode_iff]
  refine exists_congr fun o => and_congr_right fun _ => ?_
  match mode with
  | 0 | 1 | 2 => simp [eq_comm]
  | n + 3 => simp

theorem Entry.hasKey_iff (e : Entry) (sc : Scope) (addr : BitVec 32) (port : BitVec 16) :
    e.hasKey sc addr port = true ↔ e.scope = sc ∧ e.addr = addr ∧ e.port = port := by
  simp [Entry.hasKey, and_assoc]

theorem State.scopeFits_pair (s : State) (q : Fin 4) :
    s.scopeFits (.pair q) = true ↔ s.pairModes[q] = .paired := by
  simp [State.scopeFits]

theorem State.scopeFits_line (s : State) (q : Fin 4) (l : Fin 8) (h : q.val = l.val / 2) :
    s.scopeFits (.line l) = true ↔ s.pairModes[q] = .independent := by
  obtain rfl : q = pairOf l := Fin.ext h
  simp [State.scopeFits]

/-! ## The channel table (05 R93) -/

/-- Of a table a write changes the one index. -/
theorem mem_tableSet {t : List (Nat × Entry)} (i : Nat) (e : Entry) (sorted : (t.map Prod.fst).Pairwise (· < ·))
    (q : Nat × Entry) : q ∈ tableSet i e t ↔ q = (i, e) ∨ q ∈ t ∧ q.1 ≠ i := by
  induction t with
  | nil => simp [tableSet]
  | cons x t ih =>
    obtain ⟨j, y⟩ := x
    obtain ⟨above, sorted⟩ := List.pairwise_cons.1 sorted
    have above : ∀ r ∈ t, j < r.1 := fun r hr => above r.1 (List.mem_map_of_mem hr)
    rw [tableSet]
    split
    case isTrue before =>
      have other : q ∈ (j, y) :: t → q.1 ≠ i := by
        intro hq
        obtain rfl | hq := List.mem_cons.1 hq
        · exact Nat.ne_of_gt before
        · have := above q hq
          omega
      rw [List.mem_cons, and_iff_left_of_imp other]
    case isFalse notBefore =>
      split
      case isTrue here =>
        subst here
        have other : q ∈ t → q.1 ≠ i := fun hq => Nat.ne_of_gt (above q hq)
        simp only [List.mem_cons]
        constructor
        · rintro (rfl | hq)
          · exact .inl rfl
          · exact .inr ⟨.inr hq, other hq⟩
        · rintro (rfl | ⟨rfl | hq, ne⟩)
          · exact .inl rfl
          · exact absurd rfl ne
          · exact .inr hq
      case isFalse notHere =>
        rw [List.mem_cons, List.mem_cons, ih sorted]
        constructor
        · rintro (rfl | rfl | ⟨hq, ne⟩)
          · exact .inr ⟨.inl rfl, fun same => notHere same.symm⟩
          · exact .inl rfl
          · exact .inr ⟨.inr hq, ne⟩
        · rintro (rfl | ⟨rfl | hq, ne⟩)
          · exact .inr (.inl rfl)
          · exact .inl rfl
          · exact .inr (.inr ⟨hq, ne⟩)

/-- A table holds at an index the entry that stands there. -/
theorem tableGet_iff {t : List (Nat × Entry)} (i : Nat) (e : Entry) (sorted : (t.map Prod.fst).Pairwise (· < ·)) :
    tableGet i t = some e ↔ (i, e) ∈ t := by
  induction t with
  | nil => simp [tableGet]
  | cons x t ih =>
    obtain ⟨j, y⟩ := x
    obtain ⟨above, sorted⟩ := List.pairwise_cons.1 sorted
    rw [tableGet]
    split
    case isTrue here =>
      subst here
      have notLater : (i, e) ∉ t := fun later => Nat.lt_irrefl i (above i (List.mem_map_of_mem later))
      simp [notLater, eq_comm]
    case isFalse notHere =>
      rw [ih sorted]
      simp [notHere]

/-! ## Write Channel (05 R96, R97) -/

theorem State.writeChannel_malformed {p : Fin 3} {i kind num mode off ord cnt gap : Nat} {addr : BitVec 32}
    {port : BitVec 16} {s : State}
    (bad : 511 < i ∨ Scope.ofCodes kind num = none ∨ SeqFormat.ofCodes mode off ord cnt = none) :
    s.writeChannel p i kind num addr port mode off ord cnt gap = (s, .bare .malformed) := by
  rw [State.writeChannel]
  split
  case h_1 sc f scope fmt =>
    obtain index | noScope | noFmt := bad
    · exact dif_neg (by omega)
    · rw [noScope] at scope
      cases scope
    · rw [noFmt] at fmt
      cases fmt
  case h_2 => rfl

section
variable {p : Fin 3} {i kind num mode off ord cnt gap : Nat} {addr : BitVec 32} {port : BitVec 16} {s : State}
  {sc : Scope} {f : SeqFormat}

theorem State.writeChannel_conflict (h : i < 512) (scope : Scope.ofCodes kind num = some sc)
    (fmt : SeqFormat.ofCodes mode off ord cnt = some f)
    (conflict : s.scopeFits sc = false ∨ ∃ q ∈ s.channels, q.1 ≠ i ∧ q.2.hasKey sc addr port = true) :
    s.writeChannel p i kind num addr port mode off ord cnt gap = (s, .bare .refusedConflict) := by
  have found : (!s.scopeFits sc || s.channels.any fun q => q.1 != i && q.2.hasKey sc addr port) = true := by
    simpa using conflict
  simp only [State.writeChannel, scope, fmt]
  rw [dif_pos h, if_pos found]

theorem State.writeChannel_accepted (h : i < 512) (scope : Scope.ofCodes kind num = some sc)
    (fmt : SeqFormat.ofCodes mode off ord cnt = some f) (fits : s.scopeFits sc = true)
    (alone : ∀ q ∈ s.channels, q.1 = i ∨ q.2.hasKey sc addr port = false) {e : Entry}
    (he : e = { scope := sc, addr := addr, port := port, fmt := f, gapUs := max 1 (min 10000 gap)
                levels := keptLevels (tableGet i s.channels) sc addr port, win := .empty, cnt := .zero }) :
    s.writeChannel p i kind num addr port mode off ord cnt gap =
      let t := s.overdue fun k => k = i
      (({ t with channels := tableSet i e t.channels }).notifyAll (.settings (.channel ⟨i, h⟩) p),
       reply (doneIf (e.gapUs = gap)) (e.writtenBytes i)) := by
  have clear : ¬ (!s.scopeFits sc || s.channels.any fun q => q.1 != i && q.2.hasKey sc addr port) = true := by
    simp only [fits, Bool.not_true, Bool.false_or, List.any_eq_true, not_exists, not_and, Bool.and_eq_true, bne_iff_ne,
      ne_eq, Bool.not_eq_true]
    exact fun q hq other => (alone q hq).resolve_left other
  subst he
  simp only [State.writeChannel, scope, fmt]
  rw [dif_pos h, if_neg clear]
  exact congrArg (Prod.mk _) (Reply.carriedOut_ne _ gap _)

end

/-- Settles O11: a Write Channel is MALFORMED, a conflict or accepted by its checks; a table that rises is read by
membership. -/
theorem writeChannelReplacesTheEntry : Obligations.WriteChannelReplacesTheEntry := by
  refine ⟨?_, Scope.ofCodes_iff, SeqFormat.ofCodes_iff, fun i e => e.writtenBytes_laysOut i, Entry.hasKey_iff,
    fun s q l => ⟨s.scopeFits_pair q, s.scopeFits_line q l⟩, fun t i e sorted =>
      ⟨tableGet_iff i e sorted, tableSet_sorted i e t sorted, mem_tableSet i e sorted⟩⟩
  rintro p i kind num mode off ord cnt gap addr port s _ holds rfl
  rw [exec_command holds rfl]
  refine ⟨fun bad => ?_, fun h sc f scope fmt => ⟨fun conflict => ?_, fun fits alone e he => ?_⟩⟩
  · rw [State.writeChannel_malformed bad]
  · rw [State.writeChannel_conflict h scope fmt conflict]
  · rw [State.writeChannel_accepted h scope fmt fits alone (he.trans (by cases tableGet i s.channels <;> rfl))]

/-! ## Remove Channel and Set Pair Mode (05 R98, R99) -/

theorem State.removeChannel_of_lt {p : Fin 3} {i : Nat} (h : i < 512) (s : State) :
    s.removeChannel p i =
      let t := s.overdue fun k => k = i
      (({ t with channels := t.channels.filter fun q => q.1 ≠ i }).notifyAll (.settings (.channel ⟨i, h⟩) p),
       .bare .done) := dif_pos h

theorem State.removeChannel_of_le {p : Fin 3} {i : Nat} (h : 511 < i) (s : State) :
    s.removeChannel p i = (s, .bare .malformed) := dif_neg (by omega)

theorem PairMode.ofCode_eq_none {m : Nat} (h : 1 < m) : PairMode.ofCode m = none := by
  match m, h with
  | m + 2, _ => rfl

theorem State.setPairMode_malformed {p : Fin 3} {i m : Nat} {s : State} (bad : 3 < i ∨ 1 < m) :
    s.setPairMode p i m = (s, .bare .malformed) := by
  rw [State.setPairMode]
  split
  case h_1 => rfl
  case h_2 mode named =>
    obtain index | code := bad
    · exact dif_neg (by omega)
    · rw [PairMode.ofCode_eq_none code] at named
      cases named

theorem State.setPairMode_conflict {p : Fin 3} {i m : Nat} {s : State} {mode : PairMode} (h : i < 4)
    (named : PairMode.ofCode m = some mode) (conflict : ∃ q ∈ s.channels, orphanedBy ⟨i, h⟩ mode q.2 = true) :
    s.setPairMode p i m = (s, .bare .refusedConflict) := by
  simp only [State.setPairMode, named]
  rw [dif_pos h, if_pos (List.any_eq_true.2 conflict)]

theorem State.setPairMode_accepted {p : Fin 3} {i m : Nat} {s : State} {mode : PairMode} (h : i < 4)
    (named : PairMode.ofCode m = some mode) (clear : ∀ q ∈ s.channels, orphanedBy ⟨i, h⟩ mode q.2 = false) :
    s.setPairMode p i m =
      (({ s with pairModes := s.pairModes.set i mode }).notifyAll (.settings (.pairMode ⟨i, h⟩) p), .bare .done) := by
  simp only [State.setPairMode, named]
  rw [dif_pos h, if_neg (by simpa using clear)]

theorem orphanedBy_independent (q : Fin 4) (e : Entry) : orphanedBy q .independent e = true ↔ e.scope = .pair q := by
  cases h : e.scope <;> simp [orphanedBy, h]

theorem orphanedBy_paired (q : Fin 4) (e : Entry) :
    orphanedBy q .paired e = true ↔ ∃ l : Fin 8, e.scope = .line l ∧ l.val / 2 = q.val := by
  cases h : e.scope with
  | pair r => simp [orphanedBy, h]
  | line k => simp [orphanedBy, h, pairOf, Fin.ext_iff (a := (⟨k.val / 2, _⟩ : Fin 4))]

/-- Settles O12: Remove Channel turns on its index, Set Pair Mode on its codes and on the entries it would leave without
a home. -/
theorem removeChannelAndSetPairMode : Obligations.RemoveChannelAndSetPairMode := by
  refine ⟨?_, rfl, rfl, fun q e => ⟨orphanedBy_independent q e, orphanedBy_paired q e⟩⟩
  rintro p i m s _ rfl
  refine ⟨fun holds h => ?_, fun holds h => ?_, fun holds bad => ?_, fun holds h mode named =>
    ⟨fun conflict => ?_, fun clear => ?_⟩⟩
  · rw [exec_command holds rfl, State.removeChannel_of_lt h]
  · rw [exec_command holds rfl, State.removeChannel_of_le h]
  · rw [exec_command holds rfl, State.setPairMode_malformed bad]
  · rw [exec_command holds rfl, State.setPairMode_conflict h named conflict]
  · rw [exec_command holds rfl, State.setPairMode_accepted h named clear]

end Sys2Proof.Machine

/-! PROOF. Shared settings, labels and the rate (02 R44, R47, R48, R50; 04 R74; 07 R139): each command's action in the
cases its codes and the state make. -/

namespace Sys2Proof.Machine

/-! ## Line settings (04 R74) -/

theorem enableOf_of_le {e : Nat} (h : e ≤ 1) : enableOf e = some (decide (e = 1)) := by
  match e, h with
  | 0, _ | 1, _ => rfl

theorem enableOf_of_lt {e : Nat} (h : 1 < e) : enableOf e = none := by
  match e, h with
  | e + 2, _ => rfl

/-- A record that changes the enable brings the line to rest under the new enable (04 R75, R91). -/
theorem State.setLine_eq (l : Fin 8) (r : LineSettings) (s : State) :
    s.setLine l r =
      let t := s.updLine l fun x => { x with settings := r }
      if s.lines[l].settings.enable = r.enable then t
      else (t.updLine l fun x => { x with lock := false, quiet := none, frames := [] }).setLineState l
        (if r.enable then .dark else .disabled) := by
  have written : (s.updLine l fun x => { x with settings := r }).lines[l].settings = r := by
    rw [State.updLine_get, if_pos rfl]
  rw [State.setLine]
  dsimp only
  rw [State.restartLine, written]

theorem State.writeLine_malformed {p : Fin 3} {l e ms : Nat} {comp : BitVec 16} {s : State} (bad : 7 < l ∨ 1 < e) :
    s.writeLine p l e comp ms = (s, .bare .malformed) := by
  rw [State.writeLine]
  by_cases enable : e ≤ 1
  · rw [enableOf_of_le enable]
    exact dif_neg (by omega)
  · rw [enableOf_of_lt (by omega)]

theorem State.writeLine_accepted {p : Fin 3} {l e ms : Nat} {comp : BitVec 16} {s : State} (h : l < 8) (he : e ≤ 1)
    {r : LineSettings} (hr : r = { enable := e = 1, comp := comp, quietMs := max 1 (min 10000 ms) }) :
    s.writeLine p l e comp ms =
      ((s.setLine ⟨l, h⟩ r).notifyAll (.settings (.line ⟨l, h⟩) p),
       reply (doneIf (r.quietMs = ms)) (r.bytes ⟨l, h⟩)) := by
  subst hr
  rw [State.writeLine, enableOf_of_le he]
  exact (dif_pos h).trans (congrArg (Prod.mk _) (Reply.carriedOut_ne _ ms _))

/-! ## Marker settings (07 R134, R139) -/

theorem EdgeSelect.ofCode_of_lt {e : Nat} (h : 3 < e) : EdgeSelect.ofCode e = none := by
  match e, h with
  | e + 4, _ => rfl

theorem State.writeMarker_malformed {p : Fin 3} {m e w : Nat} {comp : BitVec 16} {s : State}
    (bad : 3 < m ∨ 3 < e ∨ 3 < w) : s.writeMarker p m e w comp = (s, .bare .malformed) := by
  rw [State.writeMarker]
  split
  case h_1 sel width select named =>
    obtain input | edge | filter := bad
    · exact dif_neg (by omega)
    · rw [EdgeSelect.ofCode_of_lt edge] at select
      cases select
    · rw [code4_of_le filter] at named
      cases named
  case h_2 => rfl

theorem State.writeMarker_accepted {p : Fin 3} {m e w : Nat} {comp : BitVec 16} {s : State} {sel : EdgeSelect}
    (h : m < 4) (hw : w < 4) (select : EdgeSelect.ofCode e = some sel) :
    s.writeMarker p m e w comp =
      let r : MarkerSettings := { select := sel, width := ⟨w, hw⟩, comp := comp }
      ((s.setMarker ⟨m, h⟩ r).notifyAll (.settings (.marker ⟨m, h⟩) p), reply .done (byte m :: r.bytes)) := by
  simp only [State.writeMarker, select, code4_of_lt hw]
  exact dif_pos h

theorem MarkerSettings.widthTicks_eq (r : MarkerSettings) : r.widthTicks = [0, 16, 64, 256].getD r.width.val 0 := by
  unfold MarkerSettings.widthTicks
  match r.width with
  | 0 | 1 | 2 | 3 => rfl

/-- Settles O13: a line or marker command turns on its codes, and a record that is accepted is put in force
(`State.setLine_eq`, `State.setMarker`). -/
theorem lineAndMarkerSettingsAreReplaced : Obligations.LineAndMarkerSettingsAreReplaced := by
  intro p l e ms m w comp s
  refine ⟨fun holds bad => ?_, ?_, fun holds bad => ?_, ?_, fun k r => r.laysOut k,
    fun r => ⟨r.laysOut m, r.widthTicks_eq⟩, rfl⟩
  · rw [exec_command holds rfl, State.writeLine_malformed bad]
  · rintro holds h r he hr _ rfl
    rw [exec_command holds rfl, State.writeLine_accepted h he hr, State.setLine_eq]
    rfl
  · rw [exec_command holds rfl, State.writeMarker_malformed bad]
  · rintro holds h hw sel _ select rfl
    rw [exec_command holds rfl, State.writeMarker_accepted h hw select]
    rfl

/-! ## Discipline settings (02 R50, R51) -/

theorem LockoSource.ofCode_of_le {n : Nat} (h : 4 ≤ n) : LockoSource.ofCode n = none := by
  match n, h with
  | n + 4, _ => rfl

theorem Polarity.ofCode_of_le {n : Nat} (h : 2 ≤ n) : Polarity.ofCode n = none := by
  match n, h with
  | n + 2, _ => rfl

section
variable {p : Fin 3} {sl a b w lt lc rc st hl ci sw lo po : Nat} {s : State}

theorem State.writeDiscipline_malformed
    (bad : 4 ≤ w ∨ 4 ≤ lt ∨ 4 ≤ st ∨ 4 ≤ hl ∨ 4 ≤ ci ∨ 4 ≤ sw ∨ 4 ≤ lo ∨ 2 ≤ po) :
    s.writeDiscipline p sl a b w lt lc rc st hl ci sw lo po = (s, .bare .malformed) := by
  rw [State.writeDiscipline]
  split
  case h_2 => rfl
  case h_1 hw hlt hst hhl hci hsw hlo hpo =>
    obtain h | h | h | h | h | h | h | h := bad
    case inr.inr.inr.inr.inr.inr.inl =>
      rw [LockoSource.ofCode_of_le h] at hlo
      cases hlo
    case inr.inr.inr.inr.inr.inr.inr =>
      rw [Polarity.ofCode_of_le h] at hpo
      cases hpo
    all_goals simp [code4_of_le h] at hw hlt hst hhl hci hsw

/-- The record that a Write Discipline Settings with codes that name values puts in force (02 R50). -/
theorem State.writeDiscipline_accepted (hw : w < 4) (ht : lt < 4) (hs : st < 4) (hh : hl < 4) (hc : ci < 4) (he : sw < 4)
    {ls : LockoSource} {pol : Polarity} (source : LockoSource.ofCode lo = some ls)
    (polarity : Polarity.ofCode po = some pol) {r : DisciplineSettings}
    (hr : r = { slewLimit := max 1 (min 100000 sl), a := min a 7, b := min b 7, window := ⟨w, hw⟩
                lockThreshold := ⟨lt, ht⟩, lockCount := max 2 (min 16 lc), reacquireCount := max 2 (min 16 rc)
                stepThreshold := ⟨st, hs⟩, holdoverLimit := ⟨hl, hh⟩, calInterval := ⟨ci, hc⟩, secpWidth := ⟨sw, he⟩
                lockoSource := ls, polarity := pol }) :
    s.writeDiscipline p sl a b w lt lc rc st hl ci sw lo po =
      ((s.setDiscipline r).notifyAll (.settings .discipline p),
       reply (doneIf (r.slewLimit = sl ∧ r.a = a ∧ r.b = b ∧ r.lockCount = lc ∧ r.reacquireCount = rc)) r.bytes) := by
  have answer : Reply.carriedOut
      (r.slewLimit != sl || r.a != a || r.b != b || r.lockCount != lc || r.reacquireCount != rc) r.bytes
      = reply (doneIf (r.slewLimit = sl ∧ r.a = a ∧ r.b = b ∧ r.lockCount = lc ∧ r.reacquireCount = rc)) r.bytes := by
    by_cases same : r.slewLimit = sl ∧ r.a = a ∧ r.b = b ∧ r.lockCount = lc ∧ r.reacquireCount = rc
    · rw [doneIf, if_pos same]
      exact congrArg (reply · r.bytes) (if_neg (by simp [same]))
    · rw [doneIf, if_neg same]
      refine congrArg (reply · r.bytes) (if_pos ?_)
      by_contra none
      exact same (by simpa [and_assoc] using none)
  simp only [State.writeDiscipline, code4_of_lt hw, code4_of_lt ht, code4_of_lt hs, code4_of_lt hh, code4_of_lt hc,
    code4_of_lt he, source, polarity]
  subst hr
  exact congrArg (Prod.mk _) answer

end

/-- The state in which a new record and the increment of its clamped slew are in force, before anything is read again
(02 R51, 01 R3, R20). -/
def State.withSettings (r : DisciplineSettings) (slew : Int) (s : State) : State :=
  State.setIncrement (increment s.disc.rate slew)
    { s with
      disc := { s.disc with settings := r, slew := slew }
      secpFell := s.secpFell.map fun f => { f with width := min f.width r.secpNs }
      calExpiry :=
        if r.calInterval = s.disc.settings.calInterval then s.calExpiry else r.calTicks.map fun n => s.tick + n }

/-- SECP falls if it is high beyond the new width, once the readings of the tick follow the new increment (01 R20). -/
theorem State.setDiscipline_eq (r : DisciplineSettings) (s : State) :
    s.setDiscipline r =
      let u := s.withSettings r (clampInt (-(r.slewLimit : Int)) r.slewLimit s.disc.slew)
      if u.reread.secp = true ∧ r.secpNs ≤ u.time.ns then
        { u.reread with secp := false, secpFell := some { tick := s.tick, width := r.secpNs } }
      else u.reread := by
  have settings (t : State) (ht : t = s.withSettings r (clampInt (-(r.slewLimit : Int)) r.slewLimit s.disc.slew)) :
      (if t.reread.secp && decide (r.secpNs ≤ t.reread.time.ns) then t.reread.dropSecp else t.reread)
        = if t.reread.secp = true ∧ r.secpNs ≤ t.time.ns then
            { t.reread with secp := false, secpFell := some { tick := s.tick, width := r.secpNs } }
          else t.reread := by
    simp only [Bool.and_eq_true, decide_eq_true_eq, ht]
    rfl
  rw [State.setDiscipline]
  refine Eq.trans ?_ (settings _ rfl)
  by_cases same : r.calInterval = s.disc.settings.calInterval
  · rw [if_pos same, State.withSettings, if_pos same]
    rfl
  · rw [if_neg same, State.withSettings, if_neg same]
    rfl

/-- A SECP that is low stays low where the value has not gone back below the width by which it fell at this tick
(01 R19, R20). -/
theorem State.withSettings_secp_low {r : DisciplineSettings} {slew : Int} {s : State} (low : s.secp = false)
    (passed : ∀ f ∈ s.secpFell, f.tick = s.tick → f.width ≤ (s.withSettings r slew).time.ns) :
    (s.withSettings r slew).reread.secp = false := by
  have stays : (s.withSettings r slew).secpFell.any (SecpFall.isBack s.tick (s.withSettings r slew).time.ns) = false := by
    change (s.secpFell.map _).any _ = false
    cases fell : s.secpFell with
    | none => rfl
    | some g =>
      change SecpFall.isBack _ _ _ = false
      rw [← Bool.not_eq_true, SecpFall.isBack_iff]
      rintro ⟨now, below⟩
      have := passed g fell now
      have : min g.width r.secpNs ≤ g.width := Nat.min_le_left _ _
      exact absurd below (by dsimp only; omega)
  rw [State.reread_eq _ stays]
  exact low

theorem DisciplineSettings.windowNs_eq (r : DisciplineSettings) :
    r.windowNs = [1000, 10000, 100000, 1000000].getD r.window.val 0 := by
  unfold DisciplineSettings.windowNs
  match r.window with
  | 0 | 1 | 2 | 3 => rfl

theorem DisciplineSettings.lockNs_eq (r : DisciplineSettings) :
    r.lockNs = [20, 50, 100, 500].getD r.lockThreshold.val 0 := by
  unfold DisciplineSettings.lockNs
  match r.lockThreshold with
  | 0 | 1 | 2 | 3 => rfl

theorem DisciplineSettings.stepNs_eq (r : DisciplineSettings) :
    r.stepNs = [1000, 10000, 100000, 1000000].getD r.stepThreshold.val 0 := by
  unfold DisciplineSettings.stepNs
  match r.stepThreshold with
  | 0 | 1 | 2 | 3 => rfl

theorem DisciplineSettings.holdoverSeconds_eq (r : DisciplineSettings) :
    r.holdoverSeconds = [10, 100, 1000, 10000].getD r.holdoverLimit.val 0 := by
  unfold DisciplineSettings.holdoverSeconds
  match r.holdoverLimit with
  | 0 | 1 | 2 | 3 => rfl

theorem DisciplineSettings.calTicks_eq (r : DisciplineSettings) :
    r.calTicks = [none, some 400000000, some 4000000000, some 24000000000].getD r.calInterval.val none := by
  unfold DisciplineSettings.calTicks
  match r.calInterval with
  | 0 | 1 | 2 | 3 => rfl

theorem DisciplineSettings.secpNs_eq (r : DisciplineSettings) :
    r.secpNs = [1000, 100000, 10000000, 100000000].getD r.secpWidth.val 0 := by
  unfold DisciplineSettings.secpNs
  match r.secpWidth with
  | 0 | 1 | 2 | 3 => rfl

/-- Settles O14: the command turns on its codes; a record that is accepted is put in force by
`State.setDiscipline_eq`. -/
theorem writeDisciplineSettingsReplacesTheRecord : Obligations.WriteDisciplineSettingsReplacesTheRecord := by
  intro p sl a b w lt lc rc st hl ci sw lo po s holds
  refine ⟨fun bad => ?_, ?_, fun r => ⟨r.windowNs_eq, r.lockNs_eq, r.stepNs_eq, r.holdoverSeconds_eq, r.calTicks_eq,
    r.secpNs_eq, r.laysOut⟩, rfl, rfl⟩
  · rw [exec_command holds rfl, State.writeDiscipline_malformed bad]
  · rintro hw ht hs hh hc he ls pol source polarity r hr slew u t hslew hu htt
    obtain rfl : u = s.withSettings r slew := hu
    constructor
    · rw [exec_command holds rfl, State.writeDiscipline_accepted hw ht hs hh hc he source polarity hr,
        State.setDiscipline_eq, htt, hslew]
      rfl
    · intro low passed
      have stays : (s.withSettings r slew).reread.secp = false := State.withSettings_secp_low low passed
      rw [htt, if_neg (by simp [stays])]
      exact stays

/-! ## Labels, the rate and INVALID (02 R44, R47, R48) -/

theorem State.armLabel_of_invalid {v : Nat} {s : State} (invalid : s.mon.invalid = true) :
    s.armLabel v = (s, refusal) := if_pos invalid

theorem State.armLabel_of_valid {v : Nat} {s : State} (valid : s.mon.invalid = false) :
    s.armLabel v =
      (s.updDisc fun d => { d with label := some { value := min v (2 ^ 40 - 1), rollovers := 0 } },
       reply (doneIf (min v (2 ^ 40 - 1) = v)) (toBytes 8 (min v (2 ^ 40 - 1)))) := by
  refine (if_neg (by rw [valid]; decide)).trans ?_
  exact congrArg (Prod.mk _) (Reply.carriedOut_ne _ v _)

theorem State.trimRate_refused {r : Int} {s : State} (lock : s.disc.state = .settling ∨ s.disc.state = .locked) :
    s.trimRate r = (s, refusal) := by
  unfold State.trimRate
  obtain h | h := lock <;> rw [h]

theorem State.trimRate_taken {r : Int} {s : State}
    (free : s.disc.state = .unset ∨ s.disc.state = .freerun ∨ s.disc.state = .holdover) :
    s.trimRate r =
      let n := max (-200000) (min 200000 r)
      ((State.setIncrement (increment n s.disc.slew) { s with disc := { s.disc with rate := n } }).reread,
       reply (doneIf (n = r)) (toBytesInt 4 n)) := by
  have answer := congrArg (Prod.mk (s.applyTerms (clampInt (-200000) 200000 r) s.disc.slew).reread)
    (Reply.carriedOut_ne (clampInt (-200000) 200000 r) r (toBytesInt 4 (clampInt (-200000) 200000 r)))
  unfold State.trimRate
  obtain h | h | h := free <;> rw [h] <;> exact answer

/-- Settles O15: Label Next Pulse turns on INVALID, Trim Rate on the state of the controller. -/
theorem labelNextPulseAndTrimRate : Obligations.LabelNextPulseAndTrimRate := by
  intro p v r s
  refine ⟨fun holds invalid => ?_, ?_, fun holds lock => ?_, ?_⟩
  · rw [exec_command holds rfl, State.armLabel_of_invalid invalid]
  · rintro holds valid _ rfl
    rw [exec_command holds rfl, State.armLabel_of_valid valid]
  · rw [exec_command holds rfl, State.trimRate_refused lock]
  · rintro holds free _ _ rfl rfl
    rw [exec_command holds rfl, State.trimRate_taken free]

theorem Monitor.complete_iff (m : Monitor) : m.complete = true ↔ m.good = 4096 := by
  simp [Monitor.complete, Config.goodCycles]

/-- Settles O16: Clear Invalid turns on the clock-good count and on INVALID. -/
theorem clearInvalidWaitsForTheClock : Obligations.ClearInvalidWaitsForTheClock := by
  intro p s holds
  rw [exec_command holds rfl]
  refine ⟨fun incomplete => ?_, ?_, fun complete valid => ?_⟩
  · have notComplete : s.mon.complete = false := by
      rwa [← Bool.not_eq_true, Monitor.complete_iff]
    simp only [State.clearInvalid, notComplete] <;> rfl
  · rintro complete invalid _ rfl
    simp only [State.clearInvalid, (Monitor.complete_iff _).2 complete, invalid] <;> rfl
  · simp only [State.clearInvalid, (Monitor.complete_iff _).2 complete, valid] <;> rfl

end Sys2Proof.Machine

/-! PROOF. The queue, the value of the timescale and what a change of it does to the readings of its tick (01), and the
state after reset. -/

namespace Sys2Proof.Machine

/-- Settles O1: by the two arms of `step`. -/
theorem stepRunsTheFrontCommand : Obligations.StepRunsTheFrontCommand := fun _ _ _ => ⟨rfl, rfl⟩

/-! ## A change of the increment (01 R2, R3) -/

theorem Timescale.reach_put (b sec w : Nat) (t : Timescale) :
    (t.put sec w).reach b = (w : Int) + b - t.inc := by
  rw [Timescale.reach, Timescale.put_within]
  simp only [Timescale.put]
  omega

theorem Timescale.reach_atMax (b n : Nat) (t : Timescale) :
    (t.atMax n).reach b = (maxWithin + n : Nat) + (b : Int) - t.inc := by
  rw [Timescale.reach, Timescale.atMax_within]
  simp only [Timescale.atMax]
  omega

/-- The value that the new increment gives the tick, by where its reach lies in the second. -/
theorem Timescale.reincrement_of_ne {b : Nat} {t u : Timescale} (change : t.inc ≠ b) (hu : u = { t with inc := b }) :
    t.reincrement b =
      if t.reach b < 0 then
        if t.sec = 0 then u.put 0 0 else u.put (t.sec - 1) (t.reach b + Config.unitsPerSec).toNat
      else if t.reach b < Config.unitsPerSec then u.put t.sec (t.reach b).toNat
      else if Config.maxSec ≤ t.sec then u.atMax (t.reach b - maxWithin).toNat
      else u.put (t.sec + 1) (t.reach b - Config.unitsPerSec).toNat := by
  subst hu
  exact if_neg change

theorem Timescale.carries_iff {b : Nat} {t : Timescale} :
    t.carries b = true ↔ t.inc ≠ b ∧ (Config.unitsPerSec : Int) ≤ t.reach b ∧ t.sec < Config.maxSec := by
  simp [Timescale.carries, and_assoc]

theorem Timescale.borrows_iff {b : Nat} {t : Timescale} :
    t.borrows b = true ↔ t.inc ≠ b ∧ t.reach b < 0 ∧ 0 < t.sec := by
  simp [Timescale.borrows, and_assoc]

theorem State.setIncrement_same (s : State) : s.setIncrement s.time.inc = s := by
  have carries : ¬ s.time.carries s.time.inc = true := fun h => (Timescale.carries_iff.1 h).1 rfl
  have borrows : ¬ s.time.borrows s.time.inc = true := fun h => (Timescale.borrows_iff.1 h).1 rfl
  rw [State.setIncrement, if_neg carries, if_neg borrows, Timescale.reincrement_same]

theorem unitsPerSec_eq : Config.unitsPerSec = 4294967296000000000 := by rw [Config.unitsPerSec]; norm_num

theorem maxWithin_le : maxWithin ≤ Config.unitsPerSec := Nat.sub_le _ _

theorem Timescale.put_congr {t u : Timescale} (sec : Nat) {w w' : Nat} (inc : t.inc = u.inc) (epoch : t.epoch = u.epoch)
    (within : w = w') : t.put sec w = u.put sec w' := by
  simp only [Timescale.put, inc, epoch, within]

theorem Timescale.atMax_congr {t u : Timescale} {n n' : Nat} (inc : t.inc = u.inc) (epoch : t.epoch = u.epoch)
    (excess : n = n') : t.atMax n = u.atMax n' := by
  simp only [Timescale.atMax, inc, epoch, excess]

/-- Where a tick leads: below the end of the second, at the end of the last second, or to a rollover (01 R4, R5). -/
theorem Timescale.addTick_cases (t : Timescale) :
    (t.within + t.inc < Config.unitsPerSec ∧ t.addTick = t.put t.sec (t.within + t.inc) ∧ t.rolls = false)
    ∨ (Config.unitsPerSec ≤ t.within + t.inc ∧ Config.maxSec ≤ t.sec
      ∧ t.addTick = t.atMax (t.within + t.inc - maxWithin) ∧ t.rolls = false)
    ∨ (Config.unitsPerSec ≤ t.within + t.inc ∧ t.sec < Config.maxSec
      ∧ t.addTick = t.put (t.sec + 1) (t.within + t.inc - Config.unitsPerSec) ∧ t.rolls = true) := by
  obtain h | h := Nat.lt_or_ge (t.within + t.inc) Config.unitsPerSec
  · exact .inl ⟨h, t.addTick_below h⟩
  · obtain hs | hs := Nat.lt_or_ge t.sec Config.maxSec
    · exact .inr (.inr ⟨h, hs, t.addTick_roll h hs⟩)
    · exact .inr (.inl ⟨h, hs, t.addTick_max h hs⟩)

theorem Timescale.addTick_inc_epoch (t : Timescale) : t.addTick.inc = t.inc ∧ t.addTick.epoch = t.epoch := by
  obtain ⟨-, h, -⟩ | ⟨-, -, h, -⟩ | ⟨-, -, h, -⟩ := t.addTick_cases <;> rw [h]
  · exact ⟨Timescale.put_inc .., Timescale.put_epoch ..⟩
  · exact ⟨Timescale.atMax_inc .., Timescale.atMax_epoch ..⟩
  · exact ⟨Timescale.put_inc .., Timescale.put_epoch ..⟩

/-- The seconds of the tick, and where it would stand in its second with the increment `b`. -/
theorem Timescale.addTick_reach (b : Nat) {t : Timescale} (hsec : t.sec ≤ Config.maxSec) :
    ((t.addTick.reach b = (t.within + b : Nat)) ∧ t.addTick.sec = t.sec
      ∧ (t.within + t.inc < Config.unitsPerSec ∨ Config.maxSec ≤ t.sec) ∧ t.rolls = false)
    ∨ (t.addTick.reach b = (t.within + b : Nat) - (Config.unitsPerSec : Int) ∧ t.addTick.sec = t.sec + 1
      ∧ t.sec < Config.maxSec ∧ t.rolls = true) := by
  have below (w i : Nat) : ((w + i : Nat) : Int) + b - i = (w + b : Nat) := by omega
  have atMax (m u w i : Nat) (hm : m ≤ u) (h : u ≤ w + i) : ((m + (w + i - m) : Nat) : Int) + b - i = (w + b : Nat) := by
    omega
  have roll (u w i : Nat) (h : u ≤ w + i) : ((w + i - u : Nat) : Int) + b - i = (w + b : Nat) - (u : Int) := by omega
  obtain ⟨h, value, rolls⟩ | ⟨h, hs, value, rolls⟩ | ⟨h, hs, value, rolls⟩ := t.addTick_cases
  · refine .inl ⟨?_, ?_, .inl h, rolls⟩
    · rw [value, Timescale.reach_put]; exact below ..
    · rw [value, Timescale.put_sec]
  · refine .inl ⟨?_, ?_, .inr hs, rolls⟩
    · rw [value, Timescale.reach_atMax]; exact atMax _ _ _ _ maxWithin_le h
    · rw [value]; exact Nat.le_antisymm hs hsec
  · refine .inr ⟨?_, ?_, hs, rolls⟩
    · rw [value, Timescale.reach_put]; exact roll _ _ _ h
    · rw [value, Timescale.put_sec]

/-- A tick that stood at `R` in second `xs` with its own increment, and stands at `w` after the second `sec` began with
the new one: the value and the rollover are those that the new one gives. -/
theorem Timescale.reincrement_lands {u v a : Timescale} {own new : Bool} {U M S sec xs w : Nat} {R : Int} (hM : M ≤ U)
    (inc : u.inc = v.inc) (epoch : u.epoch = v.epoch) (bound : w < 2 * U)
    (stood : (R = w ∧ xs = sec ∧ own = false) ∨ (R = w - (U : Int) ∧ xs = sec + 1 ∧ sec < S ∧ own = true))
    (lands : (w < U ∧ a = v.put sec w ∧ new = false) ∨ (U ≤ w ∧ S ≤ sec ∧ a = v.atMax (w - M) ∧ new = false)
      ∨ (U ≤ w ∧ sec < S ∧ a = v.put (sec + 1) (w - U) ∧ new = true)) :
    (if R < 0 then if xs = 0 then u.put 0 0 else u.put (xs - 1) (R + U).toNat
      else if R < U then u.put xs R.toNat
      else if S ≤ xs then u.atMax (R - M).toNat
      else u.put (xs + 1) (R - U).toNat) = a
    ∧ ((U : Int) ≤ R ∧ xs < S ↔ own = false ∧ new = true) ∧ (R < 0 ∧ 0 < xs ↔ own = true ∧ new = false) := by
  obtain ⟨rfl, rfl, rfl⟩ | ⟨rfl, rfl, hs, rfl⟩ := stood
  · rw [if_neg (by omega)]
    obtain ⟨h, rfl, rfl⟩ | ⟨h, hs, rfl, rfl⟩ | ⟨h, hs, rfl, rfl⟩ := lands
    · rw [if_pos (by omega)]
      exact ⟨Timescale.put_congr _ inc epoch (by omega), by simp; omega, by simp⟩
    · rw [if_neg (by omega), if_pos hs]
      exact ⟨Timescale.atMax_congr inc epoch (by omega), by simp; omega, by simp⟩
    · rw [if_neg (by omega), if_neg (by omega)]
      exact ⟨Timescale.put_congr _ inc epoch (by omega), by simp; omega, by simp⟩
  · obtain ⟨h, rfl, rfl⟩ | ⟨h, last, rfl, rfl⟩ | ⟨h, -, rfl, rfl⟩ := lands
    · rw [if_pos (by omega), if_neg (by omega)]
      exact ⟨Timescale.put_congr _ inc epoch (by omega), by simp; omega, by simp; omega⟩
    · omega
    · rw [if_neg (by omega), if_pos (by omega)]
      exact ⟨Timescale.put_congr _ inc epoch (by omega), by simp; omega, by simp; omega⟩

/-- The value of a tick, as its own and as another increment give it (01 R3, R4). -/
theorem Timescale.reincrement_addTick {b : Nat} {t v : Timescale} (change : t.inc ≠ b) (hv : v = { t with inc := b })
    (hw : t.within < Config.unitsPerSec) (hsec : t.sec ≤ Config.maxSec) (hb : b ≤ Config.unitsPerSec) :
    t.addTick.reincrement b = v.addTick
      ∧ (t.addTick.carries b = true ↔ t.rolls = false ∧ v.rolls = true)
      ∧ (t.addTick.borrows b = true ↔ t.rolls = true ∧ v.rolls = false) := by
  have keeps (x y : Timescale) (h : y = { x with inc := b }) :
      y.within = x.within ∧ y.inc = b ∧ y.sec = x.sec ∧ y.epoch = x.epoch := by
    subst h; exact ⟨rfl, rfl, rfl, rfl⟩
  obtain ⟨within', inc', sec', epoch'⟩ := keeps t v hv
  obtain ⟨u, hu⟩ : ∃ u : Timescale, u = { t.addTick with inc := b } := ⟨_, rfl⟩
  obtain ⟨-, uinc, -, uepoch⟩ := keeps _ u hu
  have inc : u.inc = v.inc := uinc.trans inc'.symm
  have epoch : u.epoch = v.epoch := (uepoch.trans t.addTick_inc_epoch.2).trans epoch'.symm
  have change' : t.addTick.inc ≠ b := by rw [t.addTick_inc_epoch.1]; exact change
  have lands := v.addTick_cases
  rw [within', inc', sec'] at lands
  have sum (w u : Nat) (hw : w < u) (hb : b ≤ u) : w + b < 2 * u := by omega
  rw [Timescale.reincrement_of_ne change' hu, Timescale.carries_iff, Timescale.borrows_iff]
  simp only [change', ne_eq, not_false_eq_true, true_and]
  refine Timescale.reincrement_lands maxWithin_le inc epoch (sum _ _ hw hb) ?_ lands
  obtain ⟨reach, sec, -, own⟩ | ⟨reach, sec, late, own⟩ := t.addTick_reach b hsec
  · exact .inl ⟨reach, sec, own⟩
  · exact .inr ⟨reach, sec, late, own⟩

/-- The rollover of a tick whose increment is changed is the one that the new increment gives (01 R3, R5). -/
theorem Rollover.next_changed {r : Rollover} (late : r ≠ .early) (was is : Bool) :
    (if was = false ∧ is = true then (r.next was).forward
      else if was = true ∧ is = false then (r.next was).back else r.next was) = r.next is := by
  cases was <;> cases is <;> simp [Rollover.next, late, Rollover.forward, Rollover.back]

/-- A tick of the value `v`, and a change of the increment at the tick. -/
theorem State.count_with (s : State) (v : Timescale) :
    State.count { s with time := v } = { s with time := v.addTick, rolled := s.rolled.next v.rolls } := rfl

theorem State.setIncrement_with (b : Nat) (s : State) (v : Timescale) (r : Rollover) :
    State.setIncrement b { s with time := v, rolled := r } =
      { s with
        time := v.reincrement b
        rolled := if v.carries b = true then r.forward else if v.borrows b = true then r.back else r } := rfl

theorem State.setIncrement_count {b : Nat} {s : State} (hw : s.time.within < Config.unitsPerSec)
    (hsec : s.time.sec ≤ Config.maxSec) (hb : b ≤ Config.unitsPerSec) (late : s.rolled ≠ .early) :
    s.count.setIncrement b = State.count { s with time := { s.time with inc := b } } := by
  have own : s.count = { s with time := s.time.addTick, rolled := s.rolled.next s.time.rolls } := rfl
  obtain ⟨v, hv⟩ : ∃ v : Timescale, v = { s.time with inc := b } := ⟨_, rfl⟩
  rw [← hv]
  by_cases change : s.time.inc = b
  · obtain rfl : v = s.time := by rw [hv, ← change]
    rw [← change, ← s.time.addTick_inc_epoch.1]
    exact State.setIncrement_same s.count
  · obtain ⟨value, carries, borrows⟩ := Timescale.reincrement_addTick change hv hw hsec hb
    have rolled := Rollover.next_changed late s.time.rolls v.rolls
    simp only [← carries, ← borrows] at rolled
    rw [State.count_with s v, own, State.setIncrement_with, value, rolled]

theorem increment_nearest {r l corr : Int} (hc : corr = max (-250000) (min 250000 (r + l))) :
    2 * (((increment r l : Int) - 10737418240) * 1000000000 - 10737418240 * corr).natAbs ≤ 1000000000
      ∧ 10734733885 ≤ increment r l ∧ increment r l ≤ 10740102595 := by
  have near := (roundHalfAway_nearest (10737418240 * corr) (show 0 < 1000000000 by omega)).1
  have inc : increment r l = (10737418240 + roundHalfAway (10737418240 * corr) 1000000000).toNat := by
    subst hc; rfl
  rw [inc]
  generalize roundHalfAway (10737418240 * corr) 1000000000 = part at near ⊢
  omega

/-- Settles O23: the tick and the change of its increment meet in `Timescale.reincrement_addTick`. -/
theorem aTickAddsTheNewIncrement : Obligations.ATickAddsTheNewIncrement :=
  ⟨fun _ _ hw hsec _ hb late => State.setIncrement_count hw hsec hb late, State.setIncrement_same,
    fun _ _ _ hc => increment_nearest hc⟩

/-! ## Corrections (01 R11, R12, R14) -/

theorem Timescale.shift_inc_epoch_excess (d : Int) (t : Timescale) :
    (t.shift d).inc = t.inc ∧ (t.shift d).epoch = t.epoch ∧ (t.shift d).excess = 0 := by
  rw [Timescale.shift]
  split_ifs <;> exact ⟨rfl, rfl, rfl⟩

/-- A shift by at most half a second, by the value that it leads to in units. -/
theorem Timescale.shift_value {d w : Int} {t : Timescale} (small : 2 * d.natAbs ≤ Config.unitsPerSec)
    (hw : t.within < Config.unitsPerSec) (hsec : t.sec ≤ Config.maxSec)
    (hv : w = (t.sec * Config.unitsPerSec + t.within : Nat) + d) :
    (w < 0 → (t.shift d).sec = 0 ∧ (t.shift d).within = 0)
    ∧ (0 ≤ w → w < 2 ^ 40 * Config.unitsPerSec →
      (((t.shift d).sec * Config.unitsPerSec + (t.shift d).within : Nat) : Int) = w
        ∧ (t.shift d).within < Config.unitsPerSec)
    ∧ (2 ^ 40 * Config.unitsPerSec ≤ w →
      (t.shift d).sec = 2 ^ 40 - 1 ∧ ((t.shift d).within : Int) = w - 2 ^ 40 * Config.unitsPerSec) := by
  have units := unitsPerSec_eq
  have last : Config.maxSec = 2 ^ 40 - 1 := rfl
  have put (sec within : Nat) : (t.put sec within).sec = sec ∧ (t.put sec within).within = within :=
    ⟨rfl, Timescale.put_within ..⟩
  rw [units] at small hw hv ⊢
  rw [last] at hsec
  rw [Timescale.shift, Timescale.shiftCarries, units, last]
  by_cases below : (t.within : Int) + d < 0
  · rw [if_pos below]
    by_cases first : t.sec = 0
    · rw [if_pos first, (put ..).1, (put ..).2]
      omega
    · rw [if_neg first, (put ..).1, (put ..).2]
      omega
  · rw [if_neg below]
    by_cases beyond : (4294967296000000000 : Int) ≤ t.within + d
    · rw [if_pos (by simpa using beyond), (put ..).1, (put ..).2]
      omega
    · rw [if_neg (by simpa using beyond), (put ..).1, (put ..).2]
      omega

theorem Timescale.relabel_below {q l : Nat} {v : Timescale} (h : v.sec + l < q) :
    v.relabel q l = { v with sec := 0, ns := 0, frac := 0, excess := 0 } := if_pos h

theorem Timescale.relabel_at {q l : Nat} {v : Timescale} (h : q ≤ v.sec + l) :
    v.relabel q l = { v with sec := min (v.sec + l - q) (2 ^ 40 - 1), excess := 0 } := if_neg (Nat.not_lt.2 h)

/-- Settles O24: a step shifts the value that the new increment gives the tick. -/
theorem correctionsMoveTheValue : Obligations.CorrectionsMoveTheValue := by
  refine ⟨?_, fun q l v => ⟨Timescale.relabel_below, Timescale.relabel_at⟩, rfl, rfl, rfl⟩
  rintro ex s t v w small rfl within sec hw rfl
  obtain ⟨inc, epoch, excess⟩ :=
    Timescale.shift_inc_epoch_excess (-ex * 2 ^ 24) (s.time.reincrement (increment s.disc.rate 0))
  have units := unitsPerSec_eq
  obtain ⟨below, inside, beyond⟩ := Timescale.shift_value (d := -ex * 2 ^ 24) (w := w) (by omega) within sec (by omega)
  refine ⟨rfl, inc.trans (Timescale.reincrement_inc ..),
    congrArg (fun e : BitVec 8 => e + 1) (Timescale.reincrement_epoch ..), excess, below, inside, beyond, ?_⟩
  have carry : (Config.unitsPerSec : Int) ≤ (s.time.reincrement (increment s.disc.rate 0)).within - ex * 2 ^ 24
      ↔ (s.time.reincrement (increment s.disc.rate 0)).shiftCarries (-ex * 2 ^ 24) = true := by
    rw [Timescale.shiftCarries, decide_eq_true_eq]
    omega
  simp only [carry]
  rfl

/-! ## Readings of the tick (01 R7, R8, R9, R15) -/

/-- Settles O26: `State.rereadAs` changes each bank by the functions that the statement writes out. -/
theorem readingsFollowTheTick : Obligations.ReadingsFollowTheTick := by
  refine ⟨?_, fun r off comp coarse => ?_, fun s => rfl⟩
  · rintro r s t f rec note item cap rfl hf hrec hnote hitem hcap
    obtain rfl : f = Stamp.reread s.tick r := hf
    obtain rfl : rec = Record.reread s.tick r := by
      rw [hrec]; funext x; cases x <;> rfl
    obtain rfl : note = Notice.reread s.tick r := by
      rw [hnote]; funext n; obtain ⟨body, repeats⟩ := n; cases body <;> rfl
    obtain rfl : item = Item.reread s.tick r := by
      rw [hitem]; funext x; cases x <;> rfl
    obtain rfl : cap = Capture.reread s.tick r := hcap
    refine ⟨rfl, fun i => ?_, fun p => ?_⟩
    · exact State.mapInterps_get i (Interp.reread s.tick r) s
    · match p with
      | 0 | 1 | 2 => rfl
  · rw [assembleStamp]
    split_ifs <;> rfl

/-! ## LOCKO (01 R21, R22) -/

theorem State.lockoCondition_iff {s : State} {active : Prop}
    (locked : s.disc.settings.lockoSource = .locked → (active ↔ s.disc.state = .locked))
    (lockedOrHoldover : s.disc.settings.lockoSource = .lockedOrHoldover →
      (active ↔ s.disc.state = .locked ∨ s.disc.state = .holdover))
    (invalid : s.disc.settings.lockoSource = .invalid → (active ↔ s.mon.invalid = true))
    (lineNotLive : s.disc.settings.lockoSource = .lineNotLive →
      (active ↔ ∃ l : Fin 8, s.lines[l].settings.enable = true ∧ (s.lines[l].state = .dark ∨ s.lines[l].state = .quiet))) :
    active ↔ s.lockoCondition = true := by
  unfold State.lockoCondition
  cases source : s.disc.settings.lockoSource with
  | locked => simp [locked source]
  | lockedOrHoldover => simp [lockedOrHoldover source]
  | invalid => simp [invalid source]
  | lineNotLive =>
    have all (l : Fin 8) : l ∈ allLines := by revert l; decide
    rw [lineNotLive source]
    simp [-Fin.getElem_fin, List.any_eq_true, all]

/-- Settles O27: LOCKO compares the condition of its source with the polarity. -/
theorem lockoReportsItsCondition : Obligations.LockoReportsItsCondition := by
  intro s
  refine ⟨fun held => ?_, fun active run locked lockedOrHoldover invalid lineNotLive => ?_⟩
  · rw [State.locko, held, Bool.false_and]
    cases s.disc.settings.polarity <;> decide
  · rw [State.lockoCondition_iff locked lockedOrHoldover invalid lineNotLive, State.locko, run]
    constructor <;> intro polarity <;> rw [polarity] <;> cases s.lockoCondition <;> decide

/-! ## The state after reset -/

theorem State.reset_interp (i : Fin 13) : State.reset.interps[i] = .reset := Vector.getElem_replicate _
theorem State.reset_line (l : Fin 8) : State.reset.lines[l] = .reset := Vector.getElem_replicate _
theorem State.reset_marker (m : Fin 4) : State.reset.markers[m] = .reset := Vector.getElem_replicate _
theorem State.reset_port (p : Fin 3) : State.reset.ports[p] = .reset := Vector.getElem_replicate _

theorem Interp.reset_ok : Interp.reset.Ok ∧ Interp.reset.ReadingsOk := by decide

theorem Line.reset_ok (running : Bool) : Line.reset.Ok running := by revert running; decide

theorem Marker.reset_ok : Marker.reset.Ok := by decide

theorem Port.reset_ok : Port.reset.Ok := by decide

/-- Settles O54: every bank holds its reset value at each place. -/
theorem resetIsGood : Obligations.ResetIsGood := by
  have inc : (Config.nominalInc : Nat) = increment 0 0 := by decide
  refine ⟨⟨by decide, by decide, by decide, inc, by decide, fun i => ?_⟩, by decide, by decide, fun i => ?_,
    fun l => ?_, by decide, ⟨fun m => ?_, by decide⟩, fun p => ?_, fun h => ?_, by decide, ?_, by decide⟩
  · rw [State.reset_interp]; exact Interp.reset_ok.2
  · rw [State.reset_interp]; exact Interp.reset_ok.1
  · rw [State.reset_line]; exact Line.reset_ok _
  · rw [State.reset_marker]; exact Marker.reset_ok
  · rw [State.reset_port]; exact Port.reset_ok
  · cases h
  · refine ⟨.nil, by simp [State.reset], fun p => ?_⟩
    rw [State.reset_port]
    simp [Port.reset]

end Sys2Proof.Machine

/-! PROOF. The drop links (09.2 to 09.6, 11): link events and port timers, the items of a link frame, command frames and
their hand-over, and the layouts of frames and replies. -/

namespace Sys2Proof.Machine

section
variable {p : Fin 3} {s : State}

/-! ## The link and the timers of a port -/

theorem State.linkUp_of_down (run : s.running = true) (rstn : s.rstnAsserted = false) (down : s.ports[p].state = .down) :
    s.linkUp p = s.updPort p fun q => { q with state := .detached, linkLost := false } :=
  if_pos (by rw [run, rstn, down]; rfl)

theorem State.linkLoss_of_running (run : s.running = true) (up : s.ports[p].state ≠ .down) :
    s.linkLoss p = (s.downPort p).updPort p fun q =>
      { q with cause := .link, counters := { q.counters with linkLosses := satInc q.counters.linkLosses } } :=
  (if_neg up).trans (if_pos run)

theorem State.linkLoss_of_frozen (frozen : s.running = false) (up : s.ports[p].state ≠ .down) :
    s.linkLoss p = s.updPort p fun q => { q with linkLost := true } :=
  (if_neg up).trans (if_neg (by rw [frozen]; decide))

theorem State.endLinkFrame_of_tx {x : Transmission} (run : s.running = true) (sending : s.ports[p].tx = some x) :
    s.endLinkFrame p = s.updPort p fun q =>
      { q with tx := none, counters := { q.counters with
          framesSent := satInc q.counters.framesSent
          itemsSent := satAdd q.counters.itemsSent x.items.length } } := by
  rw [State.endLinkFrame, sending]
  exact if_pos run

theorem State.heartbeatExpiry_of_due {n : Nat} (run : s.running = true) (timer : s.ports[p].hbTimer = some n)
    (due : n ≤ s.tick) :
    s.heartbeatExpiry p = s.updPort p fun q =>
      { q with hbPending := true, hbTimer := q.pacing.heartbeatTicks.map fun k => s.tick + k } :=
  if_pos (by rw [run, timer]; simpa using due)

theorem State.silenceExpiry_of_due {n : Nat} (run : s.running = true) (streaming : s.ports[p].state = .streaming)
    (timer : s.ports[p].silenceTimer = some n) (due : n ≤ s.tick) : s.silenceExpiry p = s.detachPort p .silence :=
  if_pos (by rw [run, streaming, timer]; simpa using due)

end

/-- Settles O18: each event turns on the state of its port. -/
theorem linksFrameEndsAndPortTimers : Obligations.LinksFrameEndsAndPortTimers := by
  intro p s
  refine ⟨fun run rstn down => ?_, fun run up => ?_, fun frozen up => ?_, fun x run sending => ?_,
    fun n run timer due => ?_, fun n run streaming timer due => ?_⟩ <;> refine congrArg Host.Outcome.next ?_
  · exact State.linkUp_of_down run rstn down
  · exact State.linkLoss_of_running run up
  · exact State.linkLoss_of_frozen frozen up
  · exact State.endLinkFrame_of_tx run sending
  · exact State.heartbeatExpiry_of_due run timer due
  · exact State.silenceExpiry_of_due run streaming timer due

/-! ## The items of a link frame (09 R171, R172) -/

theorem takeReply_answered {c : QueuedCommand} {cs : List QueuedCommand} {x : Item} {xs : List Item}
    (answered : c.cond = .answered) (reply : c.reply = x :: xs) :
    takeReply (c :: cs) = some (x, if xs = [] then cs else { c with reply := xs } :: cs) := by
  cases xs <;> simp [takeReply, answered, reply]

theorem takeReply_of_head {cs : List QueuedCommand} (head : ∀ c ∈ cs.head?, c.cond ≠ .answered) : takeReply cs = none := by
  cases cs with
  | nil => rfl
  | cons c cs => exact if_neg (head c rfl)

theorem findRecord_of_mem {e : PoolEntry} {es : List PoolEntry} (mem : e ∈ es) (distinct : (es.map PoolEntry.id).Nodup) :
    findRecord e.id es = some e.record := by
  induction es with
  | nil => cases mem
  | cons x xs ih =>
    obtain ⟨fresh, rest⟩ := List.nodup_cons.1 distinct
    obtain rfl | mem := List.mem_cons.1 mem
    · exact if_pos rfl
    · have other : x.id ≠ e.id := fun same => fresh (same ▸ List.mem_map_of_mem mem)
      exact (if_neg other).trans (ih mem rest)

section
variable {p : Fin 3} {s : State}

theorem State.takeItem_reply {i : Item} {cs : List QueuedCommand} (reply : takeReply s.ports[p].cmds = some (i, cs)) :
    s.takeItem p = some (i, s.updPort p fun q => { q with cmds := cs }) := by
  simp only [State.takeItem, reply]

theorem State.takeItem_none (noReply : takeReply s.ports[p].cmds = none)
    (shut : ¬(s.ports[p].state = .streaming ∧ 0 < s.ports[p].credits)) : s.takeItem p = none := by
  simp only [State.takeItem, noReply]
  exact if_neg shut

theorem State.takeItem_notice {n : Notice} {ns : List Notice} (noReply : takeReply s.ports[p].cmds = none)
    (opened : s.ports[p].state = .streaming ∧ 0 < s.ports[p].credits) (notices : s.ports[p].notices = n :: ns) :
    s.takeItem p = some (.notice n, s.updPort p fun q => { q with notices := ns, credits := q.credits - 1 }) := by
  simp only [State.takeItem, noReply]
  refine (if_pos opened).trans ?_
  rw [notices]

theorem State.takeItem_heartbeat (noReply : takeReply s.ports[p].cmds = none)
    (opened : s.ports[p].state = .streaming ∧ 0 < s.ports[p].credits) (notices : s.ports[p].notices = [])
    (beat : s.ports[p].hbPending = true) :
    s.takeItem p = some (.heartbeat (s.heartbeatOf p),
      s.updPort p fun q => { q with hbPending := false, credits := q.credits - 1 }) := by
  simp only [State.takeItem, noReply]
  refine (if_pos opened).trans ?_
  rw [notices]
  exact if_pos beat

theorem State.takeItem_queue (noReply : takeReply s.ports[p].cmds = none)
    (opened : s.ports[p].state = .streaming ∧ 0 < s.ports[p].credits) (notices : s.ports[p].notices = [])
    (beat : s.ports[p].hbPending = false) :
    s.takeItem p = match s.ports[p].queue with
      | [] => none
      | id :: ids => (findRecord id s.pool.entries).map fun r =>
        (.record r, (s.releaseIds [id]).updPort p fun q => { q with queue := ids, credits := q.credits - 1 }) := by
  simp only [State.takeItem, noReply]
  refine (if_pos opened).trans ?_
  rw [notices]
  refine (if_neg (by rw [beat]; decide)).trans ?_
  generalize s.ports[p].queue = queue
  cases queue <;> rfl

theorem State.takeItems_none (n : Nat) (none : s.takeItem p = none) : s.takeItems p (n + 1) = ([], s) := by
  simp only [State.takeItems, none]

theorem State.takeItems_some {x : Item} {t : State} (n : Nat) (taken : s.takeItem p = some (x, t)) :
    s.takeItems p (n + 1) = (x :: (t.takeItems p n).1, (t.takeItems p n).2) := by
  simp only [State.takeItems, taken]

end

/-- Settles O20: `State.takeItem` looks at replies, notices, the heartbeat and the queue in this order. -/
theorem itemsComeInTheirOrder : Obligations.ItemsComeInTheirOrder := by
  rintro p q s rfl
  refine ⟨fun c cs x xs cmds answered reply => ?_, fun head => ?_, fun n => ⟨State.takeItems_none n, fun _ _ =>
    State.takeItems_some n⟩⟩
  · exact State.takeItem_reply (by rw [cmds]; exact takeReply_answered answered reply)
  · have noReply := takeReply_of_head head
    refine ⟨fun n ns streaming credits notices => ?_, fun streaming credits notices beat => ?_,
      fun e ids streaming credits notices beat queue mem distinct => ?_, fun none => ?_⟩
    · exact State.takeItem_notice noReply ⟨streaming, credits⟩ notices
    · exact State.takeItem_heartbeat noReply ⟨streaming, credits⟩ notices beat
    · rw [State.takeItem_queue noReply ⟨streaming, credits⟩ notices beat, queue]
      simp only [findRecord_of_mem mem distinct, Option.map_some]
    · by_cases opened : s.ports[p].state = .streaming ∧ 0 < s.ports[p].credits
      · obtain other | empty | ⟨notices, beat, queue⟩ := none
        · exact absurd opened.1 other
        · omega
        · rw [State.takeItem_queue noReply opened notices beat, queue]
      · exact State.takeItem_none noReply opened

/-! ## Commands and their replies (09 R174, R175; 11 R191, R192) -/

theorem commandTable_row : ∀ row ∈ commandTable,
    argLength row.1 = some row.2.1 ∧ row.1 < 256 ∧ row.2.1 < 256
      ∧ ∀ a : List Byte, commandOf row.1 a = some (row.2.2.2 a) ∧ (row.2.2.2 a).needsPermit = row.2.2.1 := by
  simp only [commandTable, List.forall_mem_cons, List.not_mem_nil, false_implies, implies_true, and_true]
  refine ⟨?_, ?_, ?_, ?_, ?_, ?_, ?_, ?_, ?_, ?_, ?_, ?_, ?_, ?_, ?_, ?_, ?_, ?_, ?_, ?_, ?_, ?_, ?_, ?_, ?_, ?_⟩ <;>
    exact ⟨rfl, by decide, by decide, fun _ => ⟨rfl, rfl⟩⟩

theorem argLength_row {n m : Nat} (h : argLength n = some m) : ∃ row ∈ commandTable, row.1 = n := by
  have codes : n ∈ commandTable.map Prod.fst := by
    unfold argLength at h
    split at h
    case h_27 => cases h
    all_goals decide
  obtain ⟨row, mem, code⟩ := List.mem_map.1 codes
  exact ⟨row, mem, code⟩

theorem parseCommand_iff (bs : List Byte) (k : Command) :
    parseCommand bs = some k ↔ ∃ row ∈ commandTable, ∃ a : List Byte,
      bs = byte row.1 :: byte row.2.1 :: a ∧ a.length = row.2.1 ∧ k = row.2.2.2 a := by
  have byteOf {n : Nat} (h : n < 256) : (byte n).toNat = n := by simpa [byte] using h
  constructor
  · intro parsed
    match bs, parsed with
    | code :: len :: args, parsed =>
      rw [parseCommand] at parsed
      split at parsed
      case isFalse => cases parsed
      case isTrue form =>
        obtain ⟨known, length⟩ := form
        obtain ⟨row, mem, code_eq⟩ := argLength_row known
        obtain ⟨argLen, -, -, command⟩ := commandTable_row row mem
        rw [code_eq, known] at argLen
        obtain len_eq := Option.some_inj.1 argLen
        rw [← code_eq, (command args).1] at parsed
        refine ⟨row, mem, args, ?_, length.trans len_eq, (Option.some_inj.1 parsed).symm⟩
        rw [code_eq, ← len_eq, byte_toNat, byte_toNat]
  · rintro ⟨row, mem, a, rfl, length, rfl⟩
    obtain ⟨argLen, code, len, command⟩ := commandTable_row row mem
    rw [parseCommand, byteOf code, byteOf len, if_pos ⟨argLen, length⟩, (command a).1]

theorem findCond_none {k : CommandCondition} {cs : List QueuedCommand} (others : ∀ b ∈ cs, b.cond ≠ k) :
    findCond k cs = none := by
  simpa [findCond, List.find?_eq_none] using others

theorem findCond_append {k : CommandCondition} {before : List QueuedCommand} {c : QueuedCommand}
    (after : List QueuedCommand) (others : ∀ b ∈ before, b.cond ≠ k) (here : c.cond = k) :
    findCond k (before ++ c :: after) = some c := by
  have none := findCond_none others
  rw [findCond] at none ⊢
  rw [List.find?_append, none]
  simp [here]

theorem updFirst_append {k : CommandCondition} (f : QueuedCommand → QueuedCommand) {before : List QueuedCommand}
    {c : QueuedCommand} (after : List QueuedCommand) (others : ∀ b ∈ before, b.cond ≠ k) (here : c.cond = k) :
    updFirst k f (before ++ c :: after) = before ++ f c :: after := by
  induction before with
  | nil => exact if_pos here
  | cons b bs ih =>
    obtain ⟨first, rest⟩ := List.forall_mem_cons.1 others
    refine (if_neg first).trans ?_
    rw [List.cons_append, ← ih rest]
    rfl

theorem Port.answer_orphan {q : Port} {o : QueuedCommand} {os : List QueuedCommand} (r : Reply) (h : q.orphans = o :: os) :
    Port.answer r q = { q with orphans := os } := by
  simp only [Port.answer, h]

theorem Port.answer_handed {q : Port} (r : Reply) (h : q.orphans = []) :
    Port.answer r q = { q with cmds := updFirst .handed (·.answered r) q.cmds } := by
  simp only [Port.answer, h]

theorem padTo_padTo (k : Nat) (bs : List Byte) : padTo k (padTo k bs) = padTo k bs := by
  rw [padTo_eq (padTo_length k bs).le, padTo_length, Nat.sub_self, List.replicate_zero, List.append_nil]

/-- The further items of a reply hold its data in pieces of 32 bytes, the last filled with zeros (11 R192). -/
theorem moreItems_bytes (fuel : Nat) (bs : List Byte) (fits : bs.length ≤ 32 * fuel) :
    (moreItems fuel bs).map Item.type = List.replicate ((bs.length + 31) / 32) 2
      ∧ ((moreItems fuel bs).map Item.bytes).flatten
        = bs ++ List.replicate (32 * ((bs.length + 31) / 32) - bs.length) 0 := by
  induction fuel generalizing bs with
  | zero =>
    obtain rfl := List.length_eq_zero_iff.1 (Nat.le_zero.1 fits)
    exact ⟨rfl, rfl⟩
  | succ fuel ih =>
    match bs, fits with
    | [], _ => exact ⟨rfl, rfl⟩
    | b :: bs, fits =>
      obtain ⟨types, bytes⟩ := ih ((b :: bs).drop 32) (by rw [List.length_drop]; omega)
      rw [moreItems, List.map_cons, List.map_cons, List.flatten_cons, types, bytes]
      generalize hl : b :: bs = l at *
      have positive : 1 ≤ l.length := by rw [← hl]; exact Nat.le_add_left 1 bs.length
      have step : (l.length + 31) / 32 = ((l.drop 32).length + 31) / 32 + 1 := by
        rw [List.length_drop]; omega
      refine ⟨by rw [step]; rfl, ?_⟩
      change padTo 32 (padTo 32 l) ++ _ = _
      rw [padTo_padTo]
      by_cases long : 32 ≤ l.length
      · rw [padTo, List.take_append_of_le_length long, ← List.append_assoc, List.take_append_drop, step, List.length_drop]
        congr 2
        omega
      · rw [padTo_eq (by omega), List.drop_eq_nil_of_le (by omega), List.nil_append, List.append_assoc,
          List.replicate_append_replicate]
        congr 2
        simp only [List.length_nil]
        omega

/-- A reply without a reading stands in as many items as its data need (11 R192). -/
theorem replyItems_bytes (code : Byte) (c : ReplyCode) (data : List Byte) {n : Nat}
    (hn : n = max 1 ((4 + data.length + 31) / 32)) (fits : n ≤ 11) :
    (replyItems code { code := c, time := none, data := data }).map Item.type = 1 :: List.replicate (n - 1) 2
      ∧ ((replyItems code { code := c, time := none, data := data }).map Item.bytes).flatten
        = [code, byte c.code, byte n, 0] ++ data ++ List.replicate (32 * n - (4 + data.length)) 0 := by
  obtain ⟨types, bytes⟩ := moreItems_bytes 11 (data.drop 28) (by rw [List.length_drop]; omega)
  have count : ((data.drop 28).length + 31) / 32 = n - 1 := by rw [List.length_drop]; omega
  have length : (moreItems 11 (data.drop 28)).length + 1 = n := by
    have := congrArg List.length types
    rw [List.length_map, List.length_replicate, count] at this
    omega
  change 1 :: List.map Item.type (moreItems 11 (data.drop 28)) = _ ∧
    padTo 32 ([code, byte c.code, byte ((moreItems 11 (data.drop 28)).length + 1), 0] ++ padTo 28 data)
      ++ (List.map Item.bytes (moreItems 11 (data.drop 28))).flatten = _
  rw [types, bytes, length, count]
  refine ⟨rfl, ?_⟩
  rw [padTo_eq (by simp)]
  simp only [List.length_append, padTo_length, List.length_cons, List.length_nil, List.append_assoc]
  congr 1
  by_cases long : 28 ≤ data.length
  · rw [padTo, List.take_append_of_le_length long, List.replicate_zero, List.nil_append, ← List.append_assoc,
      List.take_append_drop, List.length_drop]
    congr 2
    omega
  · rw [padTo_eq (by omega), List.drop_eq_nil_of_le (by omega), List.append_assoc, List.replicate_zero, List.nil_append,
      List.nil_append, List.replicate_append_replicate]
    congr 2
    simp only [List.length_nil]
    omega

theorem toBytes_laysOut (k n : Nat) : LaysOut (toBytes k n) k [(0, k, n)] :=
  laysOut_of_eq (by simp) (by simp [endOf])

theorem toBytesInt_laysOut (k : Nat) (z : Int) : LaysOut (toBytesInt k z) k [(0, k, z)] :=
  laysOut_of_eq (by simp [bytesOf_signed]) (by simp [endOf])

section
variable {p : Fin 3} {s : State}

theorem State.handOver_of_waiting {c : QueuedCommand} (run : s.running = true) (up : s.ports[p].state ≠ .down)
    (idle : findCond .handed s.ports[p].cmds = none) (waiting : findCond .waiting s.ports[p].cmds = some c) :
    s.handOver p = match parseCommand c.bytes with
      | none => s.updPort p fun q => { q with cmds := updFirst .waiting (·.answered (.bare .malformed)) q.cmds }
      | some k =>
        if k.needsPermit && !s.ports[p].permit then
          s.updPort p fun q =>
            { q with
              counters := { q.counters with refusals := satInc q.counters.refusals }
              cmds := updFirst .waiting (·.answered (.bare .refusedPermit)) q.cmds }
        else s.updPort p fun q => { q with cmds := updFirst .waiting (fun c => { c with cond := .handed }) q.cmds } := by
  refine (if_pos (by rw [run, idle]; simpa using up)).trans ?_
  cases form : parseCommand c.bytes <;> simp only [waiting, form]

theorem State.receiveFrame_bad {bs : List Byte} (run : s.running = true) (up : s.ports[p].state ≠ .down)
    (bad : bs.length < 6 ∨ crcGood bs = false) :
    s.receiveFrame p bs = s.updPort p fun q => { q with counters := { q.counters with bad := satInc q.counters.bad } } := by
  refine (if_pos (by rw [run]; simpa using up)).trans ?_
  simp only [if_pos bad]

theorem State.receiveFrame_good {bs : List Byte} (run : s.running = true) (up : s.ports[p].state ≠ .down)
    (long : 6 ≤ bs.length) (good : crcGood bs = true) :
    s.receiveFrame p bs = s.updPort p fun q =>
      if commandQueueSize ≤ q.cmds.length then
        { q.heard s.tick with counters := { q.counters with dropped := satInc q.counters.dropped } }
      else
        { q.heard s.tick with
            counters := { q.counters with received := satInc q.counters.received }
            cmds := q.cmds ++ [{ bytes := bs.take (bs.length - 4), cond := .waiting, parts := none, reply := [] }] } := by
  refine (if_pos (by rw [run]; simpa using up)).trans ?_
  have fine : ¬(bs.length < 6 ∨ crcGood bs = false) := by rw [good]; simpa using long
  simp only [if_neg fine]

theorem State.updPort_congr {f g : Port → Port} (h : f s.ports[p] = g s.ports[p]) : s.updPort p f = s.updPort p g := by
  rw [State.updPort, State.updPort, h]

theorem Port.heard_eq (tick : Nat) (q : Port) :
    q.heard tick =
      { q with silenceTimer := if q.silent then some (tick + q.pacing.silenceTicks) else q.silenceTimer } := by
  rw [Port.heard]
  split <;> rfl

end

/-- Settles O17: intake and hand-over turn on the frame and on the command queue; the command table is
`parseCommand_iff`, the replies are `replyItems_bytes`. -/
theorem commandFramesAndHandovers : Obligations.CommandFramesAndHandovers := by
  refine ⟨?_, parseCommand_iff, fun k f before c after others => ⟨findCond_none others, fun here =>
    ⟨findCond_append after others here, updFirst_append f after others here⟩⟩,
    fun row mem a => ((commandTable_row row mem).2.2.2 a).2, fun r q => ⟨fun o os h => Port.answer_orphan r h, ?_⟩,
    fun code c st data n hn => ⟨rfl, ?_⟩, rfl, fun k n z => ⟨toBytes_laysOut k n, toBytesInt_laysOut k z⟩⟩
  · intro p c bs s run up
    refine ⟨fun idle waiting => ⟨fun formless => ?_, fun k form permit none => ?_, fun k form permitted => ?_⟩,
      fun bad => ?_, ?_⟩
    · refine congrArg Host.Outcome.next ?_
      rw [State.handOver_of_waiting run up idle waiting, formless]
    · refine congrArg Host.Outcome.next ?_
      rw [State.handOver_of_waiting run up idle waiting, form]
      exact if_pos (by rw [permit, none]; rfl)
    · refine congrArg Host.Outcome.next ?_
      rw [State.handOver_of_waiting run up idle waiting, form]
      refine if_neg ?_
      obtain h | h := permitted <;> rw [h] <;> simp
    · exact congrArg Host.Outcome.next (State.receiveFrame_bad run up bad)
    · rintro long good _ rfl
      refine ⟨fun full => ?_, fun room => ?_⟩ <;> refine congrArg Host.Outcome.next ?_
      · rw [State.receiveFrame_good run up long good]
        refine State.updPort_congr ?_
        rw [if_pos (show commandQueueSize ≤ _ from full), Port.heard_eq]
      · rw [State.receiveFrame_good run up long good]
        refine State.updPort_congr ?_
        rw [if_neg (show ¬ commandQueueSize ≤ _ from Nat.not_le.2 room), Port.heard_eq]
  · intro before c after none cmds others here
    rw [Port.answer_handed r none, cmds, updFirst_append _ after others here]
    rfl
  · rintro fits _ rfl
    exact replyItems_bytes code c data hn fits

/-! ## Link frames (11.1 to 11.3) -/

theorem takeReply_replies {cs cs' : List QueuedCommand} {x : Item} (taken : takeReply cs = some (x, cs'))
    (replies : ∀ c ∈ cs, ∀ i ∈ c.reply, i.type ≤ 2) : x.type ≤ 2 ∧ ∀ c ∈ cs', ∀ i ∈ c.reply, i.type ≤ 2 := by
  cases cs with
  | nil => cases taken
  | cons c cs =>
    obtain ⟨first, rest⟩ := List.forall_mem_cons.1 replies
    by_cases answered : c.cond = .answered
    · cases reply : c.reply with
      | nil => simp [takeReply, answered, reply] at taken
      | cons y ys =>
        rw [takeReply_answered answered reply, Option.some_inj, Prod.mk.injEq] at taken
        obtain ⟨rfl, rfl⟩ := taken
        rw [reply] at first
        obtain ⟨head, tail⟩ := List.forall_mem_cons.1 first
        refine ⟨head, ?_⟩
        split
        · exact rest
        · exact List.forall_mem_cons.2 ⟨tail, rest⟩
    · simp [takeReply, answered] at taken

theorem Item.type_record (r : Record) : 2 < (Item.record r).type := by cases r <;> simp [Item.type]

theorem Item.type_notice (n : Notice) : 2 < (Item.notice n).type := Nat.lt_of_lt_of_le (by decide) (Nat.le_add_right 16 _)

/-- The port and the item after one item is taken: a reply costs nothing, every other item a credit (09 R171, R172). -/
theorem State.takeItem_effect {p : Fin 3} {s t : State} {x : Item} (replies : s.ports[p].RepliesOk)
    (taken : s.takeItem p = some (x, t)) :
    t.ports[p].RepliesOk ∧ t.ports[p].state = s.ports[p].state
      ∧ ((x.type ≤ 2 ∧ t.ports[p].credits = s.ports[p].credits)
        ∨ (2 < x.type ∧ s.ports[p].state = .streaming ∧ t.ports[p].credits + 1 = s.ports[p].credits)) := by
  cases reply : takeReply s.ports[p].cmds with
  | some r =>
    obtain ⟨i, cs⟩ := r
    rw [State.takeItem_reply reply, Option.some_inj, Prod.mk.injEq] at taken
    obtain ⟨rfl, rfl⟩ := taken
    obtain ⟨head, rest⟩ := takeReply_replies reply replies
    rw [State.updPort_same]
    exact ⟨rest, rfl, .inl ⟨head, rfl⟩⟩
  | none =>
    by_cases opened : s.ports[p].state = .streaming ∧ 0 < s.ports[p].credits
    case neg => rw [State.takeItem_none reply opened] at taken; cases taken
    case pos =>
    obtain ⟨streaming, positive⟩ := opened
    have paid : s.ports[p].credits - 1 + 1 = s.ports[p].credits := Nat.sub_add_cancel positive
    cases notices : s.ports[p].notices with
    | cons n ns =>
      rw [State.takeItem_notice reply ⟨streaming, positive⟩ notices, Option.some_inj, Prod.mk.injEq] at taken
      obtain ⟨rfl, rfl⟩ := taken
      rw [State.updPort_same]
      exact ⟨replies, rfl, .inr ⟨Item.type_notice n, streaming, paid⟩⟩
    | nil =>
      cases beat : s.ports[p].hbPending with
      | true =>
        rw [State.takeItem_heartbeat reply ⟨streaming, positive⟩ notices beat, Option.some_inj, Prod.mk.injEq] at taken
        obtain ⟨rfl, rfl⟩ := taken
        rw [State.updPort_same]
        exact ⟨replies, rfl, .inr ⟨(by decide : 2 < 7), streaming, paid⟩⟩
      | false =>
        rw [State.takeItem_queue reply ⟨streaming, positive⟩ notices beat] at taken
        cases queue : s.ports[p].queue with
        | nil => rw [queue] at taken; cases taken
        | cons id ids =>
          rw [queue] at taken
          obtain ⟨r, -, eq⟩ := Option.map_eq_some_iff.1 taken
          obtain ⟨rfl, rfl⟩ := Prod.mk.inj eq
          rw [State.updPort_same]
          exact ⟨replies, rfl, .inr ⟨Item.type_record r, streaming, paid⟩⟩

theorem State.takeItems_effect {p : Fin 3} (n : Nat) {s t : State} {items : List Item}
    (replies : s.ports[p].RepliesOk) (taken : s.takeItems p n = (items, t)) :
    items.length ≤ n ∧ t.ports[p].credits + items.countP (fun i => 2 < i.type) = s.ports[p].credits
      ∧ (s.ports[p].state ≠ .streaming → ∀ i ∈ items, i.type ≤ 2) := by
  induction n generalizing s items with
  | zero =>
    obtain ⟨rfl, rfl⟩ := Prod.mk.inj taken
    simp
  | succ n ih =>
    cases item : s.takeItem p with
    | none =>
      rw [State.takeItems_none n item] at taken
      obtain ⟨rfl, rfl⟩ := Prod.mk.inj taken
      simp
    | some r =>
      obtain ⟨x, u⟩ := r
      rw [State.takeItems_some n item] at taken
      obtain ⟨rfl, rfl⟩ := Prod.mk.inj taken
      obtain ⟨replies', state, cost⟩ := State.takeItem_effect replies item
      obtain ⟨length, credits, types⟩ := ih replies' rfl
      rw [state] at types
      rw [List.length_cons, List.countP_cons]
      obtain ⟨reply, free⟩ | ⟨paid, streaming, credit⟩ := cost
      · refine ⟨by omega, ?_, fun other => List.forall_mem_cons.2 ⟨reply, types other⟩⟩
        rw [if_neg (by simpa using reply)]
        omega
      · refine ⟨by omega, ?_, fun other => absurd streaming other⟩
        rw [if_pos (by simpa using paid)]
        omega

theorem State.startLinkFrame_of_items {p : Fin 3} {s t : State} {items : List Item} (run : s.running = true)
    (up : s.ports[p].state ≠ .down) (idle : s.ports[p].tx = none) (taken : s.takeItems p 8 = (items, t))
    (some : items ≠ []) :
    s.startLinkFrame p = t.updPort p fun q =>
      { q with tx := .some { items := items, frame := linkFrame p items } } := by
  refine (if_pos (by rw [run, idle]; simpa using up)).trans ?_
  rw [taken]
  exact if_neg some

/-- A link frame without its check (11.1). -/
def frameBody (p : Fin 3) (items : List Item) : List Byte :=
  [byte items.length, byte p.val] ++ toBytes 2 (12 + 32 * items.length + 4) ++ padTo 8 (items.map fun i => byte i.type)
    ++ (items.map Item.bytes).flatten

theorem linkFrame_eq (p : Fin 3) (items : List Item) :
    linkFrame p items = frameBody p items ++ crcBytes (frameBody p items) := rfl

theorem itemBytes_length (items : List Item) : (items.map Item.bytes).flatten.length = 32 * items.length := by
  induction items with
  | nil => rfl
  | cons i is ih =>
    rw [List.map_cons, List.flatten_cons, List.length_append, ih, Item.bytes_length, List.length_cons]
    omega

theorem frameBody_length (p : Fin 3) (items : List Item) : (frameBody p items).length = 12 + 32 * items.length := by
  rw [frameBody, List.length_append, itemBytes_length]
  simp

theorem crcBytes_length (bs : List Byte) : (crcBytes bs).length = 4 := rfl

/-- The places of the items stand one after another behind the header. -/
theorem itemBytes_get (items : List Item) (k : Nat) (h : k < items.length) :
    (((items.map Item.bytes).flatten).drop (32 * k)).take 32 = items[k].bytes := by
  induction items generalizing k with
  | nil => cases h
  | cons i is ih =>
    rw [List.map_cons, List.flatten_cons]
    cases k with
    | zero => rw [Nat.mul_zero, List.drop_zero, List.take_left' (Item.bytes_length i)]; rfl
    | succ k =>
      have place : 32 * (k + 1) = i.bytes.length + 32 * k := by rw [Item.bytes_length]; omega
      rw [place, List.drop_length_add_append]
      exact ih k (Nat.lt_of_succ_lt_succ h)

theorem Item.type_eq (i : Item) : i.type = itemType i := by
  cases i with
  | record r => cases r <;> rfl
  | notice n => obtain ⟨body, repeats⟩ := n; cases body <;> rfl
  | reply | timeReply | replyMore | heartbeat => rfl

theorem padTo_eq_range (k : Nat) (bs : List Byte) : padTo k bs = (List.range k).map fun j => bs[j]?.getD 0 := by
  refine List.ext_getElem (by simp) fun j h _ => ?_
  simp only [padTo, List.getElem_take, List.getElem_append, List.getElem_replicate, List.getElem_map, List.getElem_range]
  split
  · rename_i inside; rw [List.getElem?_eq_getElem inside]; rfl
  · rename_i outside; rw [List.getElem?_eq_none (Nat.not_lt.1 outside)]; rfl

theorem bytesOf_ones (place value : Nat → Nat) (ks : List Nat) :
    bytesOf (ks.map fun k => (place k, 1, (value k : Int))) = ks.map fun k => byte (value k) := by
  induction ks with
  | nil => rfl
  | cons k ks ih =>
    rw [List.map_cons, bytesOf_nat, toBytes_one, ih]
    rfl

/-- The types of the items in the header, zero where there is no item. -/
theorem frameTypes_eq (items : List Item) :
    padTo 8 (items.map fun i => byte i.type)
      = bytesOf ((List.range 8).map fun k => (4 + k, 1, (((items[k]?.map itemType).getD 0 : Nat) : Int))) := by
  rw [padTo_eq_range, bytesOf_ones (4 + ·) fun k => (items[k]?.map itemType).getD 0]
  refine List.map_congr_left fun k _ => ?_
  rw [List.getElem?_map]
  cases items[k]? with
  | none => rfl
  | some i => exact congrArg byte i.type_eq

theorem linkFrame_laysOut (p : Fin 3) (items : List Item) :
    LaysOut (linkFrame p items) (12 + 32 * items.length + 4) (fields
      [[(0, 1, items.length), (1, 1, p.val), (2, 2, (12 + 32 * items.length + 4 : Nat))],
       (List.range 8).map fun k => (4 + k, 1, (((items[k]?.map itemType).getD 0 : Nat) : Int))]) := by
  refine laysOut_prefix (after := (items.map Item.bytes).flatten ++ crcBytes (frameBody p items)) (m := 12) ?_ ?_ ?_
  · rw [linkFrame_eq]
    nth_rewrite 1 [frameBody]
    simp only [fields, List.flatten_cons, List.flatten_nil, List.append_nil, ← frameTypes_eq items, List.cons_append,
      bytesOf_nat, toBytes_one, List.append_assoc, List.nil_append]
  · simp [endOf, fields, List.range_succ]
  · rw [linkFrame_eq, List.length_append, frameBody_length, crcBytes_length]

theorem drop_behind {before : List Byte} {n : Nat} (length : before.length = n) (k : Nat) (after : List Byte) :
    (before ++ after).drop (n + k) = after.drop k := by
  rw [← length, List.drop_length_add_append]

theorem linkFrame_item (p : Fin 3) (items : List Item) (k : Nat) (h : k < items.length) :
    ((linkFrame p items).drop (12 + 32 * k)).take 32 = items[k].bytes := by
  have header : ([byte items.length, byte p.val] ++ toBytes 2 (12 + 32 * items.length + 4)
      ++ padTo 8 (items.map fun i => byte i.type)).length = 12 := by simp
  have inside : 32 ≤ (((items.map Item.bytes).flatten).drop (32 * k)).length := by
    rw [List.length_drop, itemBytes_length]; omega
  rw [linkFrame_eq, frameBody, List.append_assoc, drop_behind header,
    List.drop_append_of_le_length (by rw [itemBytes_length]; omega), List.take_append_of_le_length inside]
  exact itemBytes_get items k h

theorem linkFrame_crc (p : Fin 3) (items : List Item) :
    (linkFrame p items).drop (12 + 32 * items.length)
      = crcBytes ((linkFrame p items).take (12 + 32 * items.length)) := by
  rw [linkFrame_eq, ← frameBody_length p items, List.drop_left, List.take_left]

theorem times_eq_foldl {σ : Type} (f : σ → σ) (n : Nat) (x : σ) : times f n x = (List.range n).foldl (fun y _ => f y) x := by
  induction n generalizing x with
  | zero => rfl
  | succ n ih => rw [times, ih, List.range_succ_eq_map, List.foldl_cons, List.foldl_map]

/-- The check as sent is the check of 11 R190, least significant byte first. -/
theorem crcBytes_eq {bs : List Byte} {step : BitVec 32 → BitVec 32} {c : BitVec 32}
    (hstep : step = fun r => if r.getLsbD 0 then (r >>> 1) ^^^ BitVec.reverse 0x04C11DB7#32 else r >>> 1)
    (hc : c = ~~~ (bs.foldl (fun r b => (List.range 8).foldl (fun r _ => step r) (r ^^^ b.setWidth 32)) 0xFFFFFFFF#32)) :
    crcBytes bs = [c.extractLsb' 0 8, c.extractLsb' 8 8, c.extractLsb' 16 8, c.extractLsb' 24 8] := by
  have generator : BitVec.reverse 0x04C11DB7#32 = 0xEDB88320#32 := by decide +kernel
  have bit : step = crcBit := by rw [hstep, generator]; rfl
  have byte : (fun (r : BitVec 32) (b : Byte) => (List.range 8).foldl (fun r _ => step r) (r ^^^ b.setWidth 32)) = crcByte := by
    funext r b
    rw [bit, ← times_eq_foldl]
    rfl
  have check : c = crc32 bs := by rw [hc, byte, crc32]
  have part (i : Nat) : (c >>> i).setWidth 8 = c.extractLsb' i 8 :=
    BitVec.eq_of_toNat_eq (by rw [BitVec.toNat_setWidth, BitVec.toNat_ushiftRight, BitVec.extractLsb'_toNat])
  have first : c.setWidth 8 = c.extractLsb' 0 8 := by rw [← part, BitVec.ushiftRight_zero]
  rw [← part 8, ← part 16, ← part 24, ← first, check]
  rfl

theorem Item.reply_bytes {bs : List Byte} (fits : bs.length ≤ 32) :
    (Item.reply bs).bytes = bs ++ List.replicate (32 - bs.length) 0
      ∧ (Item.replyMore bs).bytes = bs ++ List.replicate (32 - bs.length) 0 :=
  ⟨padTo_eq fits, padTo_eq fits⟩

theorem Item.timeReply_bytes {head tail : List Byte} (st : Stamp) (hh : head.length = 4) (ht : tail.length = 16) :
    (Item.timeReply head st tail).bytes = head ++ st.bytes ++ tail := by
  have full : (head ++ st.bytes ++ tail).length = 32 := by simp [hh, ht]
  rw [Item.bytes, padTo_eq full.le, full, Nat.sub_self, List.replicate_zero, List.append_nil]

theorem Item.timeReply_laysOut {head tail : List Byte} (st : Stamp) (hh : head.length = 4) (ht : tail.length = 16) :
    (Item.timeReply head st tail).bytes.take 4 = head ∧ (Item.timeReply head st tail).bytes.drop 16 = tail
      ∧ LaysOut (Item.timeReply head st tail).bytes 32 (stampFields 4 st) := by
  refine ⟨?_, ?_, Item.bytes_length _, ?_⟩ <;> rw [Item.timeReply_bytes st hh ht]
  · rw [List.append_assoc, List.take_left' hh]
  · rw [List.drop_left' (by simp [hh])]
  · have numbers := (numbers_of_bytesOf head tail (stampFields 4 st) (by rw [hh]; exact endOf_stampFields 4 st)).1
    rw [← Stamp.bytes_eq, ← List.append_assoc] at numbers
    exact numbers

/-- Settles O19: one item after another by `State.takeItem_effect`; the layouts are those of the header, the items and
the check. -/
theorem linkFramesTakeEligibleItems : Obligations.LinkFramesTakeEligibleItems := by
  refine ⟨?_, ?_, Record.laysOut, Notice.laysOut, Heartbeat.laysOut, ?_, Item.type_eq, rfl, rfl, rfl, rfl, rfl, rfl, rfl,
    rfl, rfl, rfl, rfl, rfl, rfl, rfl, rfl, rfl, rfl, fun bs step c => crcBytes_eq⟩
  · intro p items t s run up idle replies taken some
    obtain ⟨length, credits, types⟩ := State.takeItems_effect 8 replies taken
    refine ⟨congrArg Host.Outcome.next (State.startLinkFrame_of_items run up idle taken some), length, credits, types,
      ?_, ?_⟩
    · rw [linkFrame_eq, List.length_append, frameBody_length, crcBytes_length]
      omega
    · rw [linkFrame_eq]
      exact crcGood_append _
  · rintro p items f n rfl rfl -
    exact ⟨linkFrame_laysOut p items, linkFrame_item p items, linkFrame_crc p items⟩
  · rintro bs st head tail
    refine ⟨Item.reply_bytes, ?_⟩
    rintro hh ht _ rfl
    exact Item.timeReply_laysOut st hh ht

end Sys2Proof.Machine

/-! PROOF. Calibration (03.4), the classification of arrivals and their counters (05 R104; 06 R114 to R119), arrivals that
touch no window (04 R89; 05 R94), offers and notices (08), and the rows of the monitor (10). -/

namespace Sys2Proof.Machine

/-! ## Calibration (03 R64 to R67) -/

section
variable {i : Input} {s : State}

theorem State.updInterp_congr {f g : Interp → Interp} (h : f (s.interp i) = g (s.interp i)) :
    s.updInterp i f = s.updInterp i g :=
  congrArg (fun x => { s with interps := s.interps.set (Input.index i) x }) h

theorem Interp.converter_idle (x : Interp) : x.converter = .idle ↔ x.conv = none ∧ x.sample = none := by
  rw [Interp.converter]
  cases x.conv <;> cases x.sample <;> simp

theorem State.internalEdge_of_idle (run : s.running = true) (conv : (s.interp i).conv = none)
    (sample : (s.interp i).sample = none) (collection : (s.interp i).collection ≠ none) :
    s.internalEdge i = s.updInterp i fun x => { x with sample := some (s.tick + 7) } := by
  refine if_pos ?_
  rw [run, (Interp.converter_idle _).2 ⟨conv, sample⟩, Option.isSome_iff_ne_none.2 collection]
  rfl

theorem State.internalEdge_of_busy
    (busy : (s.interp i).conv ≠ none ∨ (s.interp i).sample ≠ none ∨ (s.interp i).collection = none) :
    s.internalEdge i = s := by
  refine if_neg fun idle => ?_
  rw [Bool.and_eq_true, Bool.and_eq_true, beq_iff_eq, Interp.converter_idle] at idle
  obtain ⟨⟨-, conv, sample⟩, collection⟩ := idle
  obtain h | h | h := busy
  · exact h conv
  · exact h sample
  · rw [h] at collection; cases collection

theorem State.endSample_of_due {n : Nat} {c : Collection} {k : Fin 32} (run : s.running = true)
    (sample : (s.interp i).sample = some n) (due : n ≤ s.tick) (collection : (s.interp i).collection = some c) :
    s.endSample i k = s.updInterp i fun x =>
      if Config.tableSum ≤ (c.count k).samples then
        { x with sample := none, table := some (c.count k).bins, collection := none,
                 calibrations := satInc x.calibrations }
      else { x with sample := none, collection := some (c.count k) } := by
  rw [State.endSample, sample]
  refine (if_pos (by rw [run]; simpa using due)).trans ?_
  refine State.updInterp_congr ?_
  rw [collection]

theorem Interp.startCollection_eq (x : Interp) :
    x.startCollection = if x.collection = none then
      { x with collection := some { bins := Vector.replicate 32 0, samples := 0 } } else x := by
  rw [Interp.startCollection]
  cases h : x.collection <;> rfl

end

/-- Settles O31: each event turns on what the converter holds. -/
theorem calibrationCollectsSamples : Obligations.CalibrationCollectsSamples := by
  intro i k s run
  refine ⟨fun conv sample collection => ?_, fun busy => ?_, ?_, fun n timer due => ?_⟩
  · exact congrArg Host.Outcome.next (State.internalEdge_of_idle run conv sample collection)
  · exact congrArg Host.Outcome.next (State.internalEdge_of_busy busy)
  · rintro n c sample due collection _ rfl
    refine ⟨fun more => ?_, fun full => ?_⟩ <;> refine congrArg Host.Outcome.next ?_ <;>
      rw [State.endSample_of_due run sample due collection] <;> refine State.updInterp_congr ?_
    · exact if_neg (Nat.not_le.2 more)
    · exact if_pos full
  · refine congrArg Host.Outcome.next ?_
    have eq : (fun x : Interp => if x.collection = none then
        { x with collection := some { bins := Vector.replicate 32 0, samples := 0 } } else x)
        = Interp.startCollection := funext fun x => x.startCollection_eq.symm
    rw [eq]
    exact if_pos (by rw [run, timer]; simpa using due)

/-! ## Classification and counters (05 R104; 06 R114 to R119) -/

theorem lagOf_eq (st sk : Stamp) :
    lagOf st sk = max (-2147483647) (min 2147483647
      (((st.sec * 1000000000 + st.ns) * 256 + st.sub : Nat)
        - ((sk.sec * 1000000000 + sk.ns) * 256 + sk.sub : Nat) : Int)) := rfl

theorem classify_other {l k : Fin 8} (st sk : Stamp) (other : k ≠ l) :
    classify l st (.seen k sk) =
      if st.epoch ≠ sk.epoch then ⟨.follower, .paired k sk, none, false, true⟩
      else if lagOf st sk < 0 then ⟨.follower, .paired l st, some (lagOf st sk), true, false⟩
      else ⟨.follower, .paired k sk, some (lagOf st sk), false, false⟩ := if_neg other

theorem classify_own (l : Fin 8) (st sk : Stamp) : classify l st (.seen l sk) = ⟨.repeated, .seen l sk, none, false, false⟩ :=
  if_pos rfl

theorem markLater_own (l : Fin 8) (st sk : Stamp) : markLater l st (.seen l sk) = .seen l sk := if_pos rfl

theorem markLater_other {l k : Fin 8} (st sk : Stamp) (other : k ≠ l) : markLater l st (.seen k sk) = .paired k sk :=
  if_neg other

theorem ChannelCounters.classified_overtaking {c : ChannelCounters} {isA : Bool} {m : Mark} (follower : m.cls = .follower)
    (overtook : m.overtook = true) :
    c.classified m isA = ChannelCounters.lead isA (ChannelCounters.unlead (!isA) { c with followers := satInc c.followers }) := by
  rw [ChannelCounters.classified, follower]
  exact if_pos overtook

/-- Settles O45: `classify` by the slot, and the counter of each classification. -/
theorem classificationFollowsTheSlot : Obligations.ClassificationFollowsTheSlot := by
  constructor
  · rintro l k st sk lag other hlag
    rw [← lagOf_eq] at hlag
    subst hlag
    refine ⟨rfl, classify_own l st sk, rfl, rfl, rfl, rfl, fun across => ?_, fun same later => ?_, fun same earlier => ?_,
      rfl, markLater_own l st sk, markLater_other st sk other, rfl, rfl, rfl, rfl⟩ <;> rw [classify_other st sk other]
    · exact if_pos across
    · rw [if_neg (not_not.2 same), if_neg (Int.not_lt.2 later)]
    · rw [if_neg (not_not.2 same), if_pos earlier]
  · rintro c isA m t rfl
    refine ⟨fun leads => ?_, fun follower behind => ?_, fun follower overtook => ?_, fun repeated => ?_, fun late => ?_⟩
    · obtain h | h := leads <;> rw [ChannelCounters.classified, h] <;> rfl
    · rw [ChannelCounters.classified, follower]
      exact if_neg (by rw [behind]; decide)
    · rw [ChannelCounters.classified_overtaking follower overtook]
      cases isA <;> rfl
    · rw [ChannelCounters.classified, repeated]
    · rw [ChannelCounters.classified, late]

/-! ## Arrivals that touch no window (04 R89; 05 R94) -/

/-- The number of `k` bytes at a byte of the payload, in a byte order, absent where the payload of `n` bytes ends before
its end (04 R89). -/
def payloadNumber (n : Nat) (bs : List Byte) (off : BitVec 8) (k : Nat) (o : ByteOrder) : Option Nat :=
  if off.toNat + k ≤ n then some (orderedNat o (bytesAt off.toNat k bs)) else none

/-- The sequence that a payload holds by a format. -/
def SeqFormat.seqOf (n : Nat) (bs : List Byte) : SeqFormat → Option (BitVec 32)
  | .none => Option.none
  | .packet off o => (payloadNumber n bs off 4 o).map (BitVec.ofNat 32)
  | .message off o _ => (payloadNumber n bs off 4 o).map (BitVec.ofNat 32)

/-- The count that a payload holds by a format. -/
def SeqFormat.countOf (n : Nat) (bs : List Byte) : SeqFormat → Option Nat
  | .none => Option.none
  | .packet _ _ => Option.none
  | .message _ o off => payloadNumber n bs off 2 o

theorem readFields_eq (f : SeqFormat) (n : Nat) (bs : List Byte) :
    readFields f n bs = (f.seqOf n bs, f.countOf n bs,
      match f with
      | .none => false
      | .packet .. => (f.seqOf n bs).isNone
      | .message .. => (f.seqOf n bs).isNone || (f.countOf n bs).isNone) := by
  have number (off : BitVec 8) (o : ByteOrder) :
      (if off.toNat + 4 ≤ n then some (BitVec.ofNat 32 (orderedNat o (bytesAt off.toNat 4 bs))) else none)
        = (payloadNumber n bs off 4 o).map (BitVec.ofNat 32) := by
    rw [payloadNumber]
    split <;> rfl
  cases f with
  | none => rfl
  | packet off o => simp only [readFields, number, SeqFormat.seqOf, SeqFormat.countOf]
  | message off o cnt => simp only [readFields, number, SeqFormat.seqOf, SeqFormat.countOf, payloadNumber]

theorem rangeIsCut_eq (count : Option Nat) : rangeIsCut count = count.any fun c => c < 1 || 64 < c := by
  cases count with
  | none => rfl
  | some n =>
    rw [rangeIsCut, Option.any_some, Option.any_some, clampNat, bne, Bool.eq_iff_iff]
    simp only [Bool.not_eq_true', beq_eq_false_iff_ne, Bool.or_eq_true, decide_eq_true_eq]
    omega

section
variable {tick i n : Nat} {a : Arrival} {bs : List Byte} {e : Entry}

theorem Entry.take_damaged (damaged : a.verdict ≠ .none) :
    e.take tick i a n bs = ({ e with cnt := { e.cnt with damaged := satInc e.cnt.damaged } },
      [.arrival (arrivalRecord i a .damaged (e.fmt.seqOf n bs) (e.fmt.countOf n bs))]) := by
  rw [Entry.take, readFields_eq]
  exact if_pos damaged

theorem Entry.take_unsequenced (whole : a.verdict = .none) (mode : e.fmt = .none) :
    e.take tick i a n bs = ({ e with cnt := e.cnt.lead (e.isA a.line) },
      [.arrival (arrivalRecord i a .unsequenced none none)]) := by
  rw [Entry.take, readFields_eq, mode]
  exact (if_neg (not_not.2 whole)).trans (if_neg Bool.false_ne_true)

/-- A payload that does not hold a field of the format (04 R89). -/
theorem Entry.take_short (whole : a.verdict = .none) (mode : e.fmt ≠ .none)
    (cut : e.fmt.seqOf n bs = none ∨ (e.fmt.countOf n bs = none ∧ ∃ off o off', e.fmt = .message off o off')) :
    e.take tick i a n bs = ({ e with cnt := { e.cnt with short := satInc e.cnt.short } },
      [.arrival (arrivalRecord i a .short none none)]) := by
  rw [Entry.take, readFields_eq]
  refine (if_neg (not_not.2 whole)).trans ((if_pos ?_).trans rfl)
  obtain h | ⟨h, off, o, off', message⟩ := cut
  · cases hf : e.fmt with
    | none => exact absurd hf mode
    | packet off o => rw [hf] at h; simp [h]
    | message off o off' => rw [hf] at h; simp [h]
  · rw [message] at h
    simp [message, h]

theorem Entry.take_sequenced {x : BitVec 32} (whole : a.verdict = .none) (mode : e.fmt ≠ .none)
    (seq : e.fmt.seqOf n bs = some x) (full : e.fmt.countOf n bs ≠ none ∨ ∃ off o, e.fmt = .packet off o) :
    e.take tick i a n bs = e.takeSequenced tick i a x (e.fmt.countOf n bs) := by
  rw [Entry.take, readFields_eq]
  refine (if_neg (not_not.2 whole)).trans ((if_neg ?_).trans ?_)
  · obtain h | ⟨off, o, packet⟩ := full
    · cases hf : e.fmt with
      | none => exact absurd hf mode
      | packet off o => rw [hf] at seq; simp [seq]
      | message off o off' => rw [hf] at seq h; simp [seq, h]
    · rw [packet] at seq
      simp [packet, seq]
  · simp only [seq]

end

theorem Entry.isA_iff (e : Entry) (l : Fin 8) : e.isA l = true ↔ (∃ k, e.scope = .line k) ∨ l.val % 2 = 0 := by
  rw [Entry.isA]
  cases e.scope <;> simp

/-- Settles O42: `Entry.take` looks at the verdict and at the fields of the format. -/
theorem unplacedArrivals : Obligations.UnplacedArrivals := by
  rintro tick i n a bs e seq count number hnumber hseq hcount r rfl
  obtain rfl : number = payloadNumber n bs := by
    rw [hnumber]; funext off k o
    rw [payloadNumber]
    cases o <;> rfl
  obtain rfl : seq = e.fmt.seqOf n bs := by rw [hseq]; cases e.fmt <;> rfl
  obtain rfl : count = e.fmt.countOf n bs := by rw [hcount]; cases e.fmt <;> rfl
  refine ⟨fun damaged => ?_, fun whole mode => ⟨fun cut => ?_, fun x seq full => ?_⟩, fun whole mode => ?_, e.isA_iff⟩
  · rw [Entry.take_damaged damaged, ← rangeIsCut_eq]
    rfl
  · exact Entry.take_short whole mode cut
  · exact Entry.take_sequenced whole mode seq full
  · rw [Entry.take_unsequenced whole mode]
    rfl

/-! ## Offers and notices (08) -/

theorem NoticeBody.kind_eq (b : NoticeBody) : b.kind.val = noticeKind b := by cases b <;> rfl

theorem NoticeBody.kind_iff (b c : NoticeBody) : b.kind = c.kind ↔ noticeKind b = noticeKind c := by
  rw [Fin.ext_iff, b.kind_eq, c.kind_eq]

section
variable {b : NoticeBody} {ns : List Notice}

theorem raiseInto_fresh (fresh : ∀ n ∈ ns, noticeKind n.body ≠ noticeKind b) :
    raiseInto b ns = ns ++ [{ body := b, repeats := 1 }] ∧ amendInto b ns = ns ++ [{ body := b, repeats := 1 }] := by
  induction ns with
  | nil => exact ⟨rfl, rfl⟩
  | cons n ns ih =>
    obtain ⟨first, rest⟩ := List.forall_mem_cons.1 fresh
    obtain ⟨raise, amend⟩ := ih rest
    have other : n.body.kind ≠ b.kind := fun h => first ((NoticeBody.kind_iff ..).1 h)
    rw [raiseInto, amendInto, if_neg other, if_neg other, raise, amend]
    exact ⟨rfl, rfl⟩

theorem raiseInto_pending {before after : List Notice} {n : Notice}
    (others : ∀ x ∈ before, noticeKind x.body ≠ noticeKind b) (same : noticeKind n.body = noticeKind b) :
    raiseInto b (before ++ n :: after)
        = before ++ { body := n.body.merge b, repeats := min (n.repeats + 1) 65535 } :: after
      ∧ amendInto b (before ++ n :: after) = before ++ { n with body := b } :: after := by
  induction before with
  | nil => exact ⟨if_pos ((NoticeBody.kind_iff ..).2 same), if_pos ((NoticeBody.kind_iff ..).2 same)⟩
  | cons x xs ih =>
    obtain ⟨first, rest⟩ := List.forall_mem_cons.1 others
    obtain ⟨raise, amend⟩ := ih rest
    have other : x.body.kind ≠ b.kind := fun h => first ((NoticeBody.kind_iff ..).1 h)
    rw [List.cons_append, raiseInto, amendInto, if_neg other, if_neg other, raise, amend]
    exact ⟨rfl, rfl⟩

end

theorem Port.inService_iff (q : Port) : q.inService = true ↔ q.state = .streaming ∨ q.state = .held := by
  simp [Port.inService]

theorem Port.attend_eq (bit : Nat) (q : Port) :
    q.attend bit =
      { q with attention := if q.state = .down then q.attention else q.attention ||| BitVec.ofNat 9 (2 ^ bit) } := by
  rw [Port.attend]
  split <;> rfl

theorem Port.notify_eq (b : NoticeBody) (q : Port) :
    q.notify b =
      { q with
        attention := if q.state = .down then q.attention else q.attention ||| BitVec.ofNat 9 (2 ^ noticeKind b)
        notices := if q.inService then raiseInto b q.notices else q.notices } := by
  rw [Port.notify, Port.attend_eq, b.kind_eq]
  cases q.inService <;> rfl

theorem Port.amend_eq (b : NoticeBody) (q : Port) :
    q.amend b =
      { q with
        attention := if q.state = .down then q.attention else q.attention ||| BitVec.ofNat 9 (2 ^ noticeKind b)
        notices := if q.inService then amendInto b q.notices else q.notices } := by
  rw [Port.amend, Port.attend_eq, b.kind_eq]
  cases q.inService <;> rfl

theorem NoticeBody.merge_eq (pending raised : NoticeBody) :
    pending.merge raised = match pending, raised with
      | .loss c first _ _, .loss _ _ last total => .loss (min (c + 1) 4294967295) first last total
      | _, _ => raised := by
  cases pending <;> cases raised <;> rfl

theorem Port.silent_iff (q : Port) : q.silent = true ↔ q.state = .streaming ∧ q.credits = 0 ∧ q.queue ≠ [] := by
  simp [Port.silent, and_assoc]

theorem Port.settle_eq (n : Nat) (q : Port) :
    q.settle n = { q with
      silenceTimer :=
        if q.state = .streaming ∧ q.credits = 0 ∧ q.queue ≠ [] then
          some (q.silenceTimer.getD (n + q.pacing.silenceTicks))
        else none
      lagging := q.lagging && decide (q.quota ≤ q.queue.length) } := by
  have room : (!q.hasRoom) = decide (q.quota ≤ q.queue.length) := by
    rw [Port.hasRoom, ← decide_not]
    exact decide_eq_decide.2 Nat.not_lt
  simp only [Port.settle, room, q.silent_iff]

theorem State.releaseIds_eq (ids : List Nat) (s : State) :
    s.releaseIds ids = { s with pool := { s.pool with
      entries := s.pool.entries.filterMap fun e =>
        if e.id ∈ ids then (if e.refs ≤ 1 then none else some { e with refs := e.refs - 1 }) else some e } } := by
  simp only [State.releaseIds, releaseRefs, List.contains_iff_mem]

/-- What an offer leaves: the ports, and the pool with the entry of the record where a port takes it. -/
theorem State.offer_eq (o : Offer) (s : State) :
    s.offer o =
      { s with
        ports := (s.mapPorts fun p q => if o.ports[p] then q.offered s.pool.next o.record.stamp else q).ports
        pool := if s.takers o = [] then s.pool else { s.pool with
          entries := s.pool.entries ++ [{ id := s.pool.next, record := o.record, refs := (s.takers o).length }]
          next := s.pool.next + 1 } } := by
  rw [State.offer]
  dsimp only
  split <;> rfl

theorem State.takers_length (o : Offer) (s : State) :
    (s.takers o).length = allPorts.countP (fun p => o.ports[p] && s.ports[p].inService
      && decide (s.ports[p].queue.length < s.ports[p].quota)) := by
  rw [State.takers, ← List.countP_eq_length_filter]
  refine List.countP_congr fun p _ => ?_
  rw [Port.takes, Port.hasRoom, Bool.and_assoc]

theorem Port.offered_eq (id : Nat) (st : Stamp) (q : Port) (admitted : Bool) :
    (if admitted then q.offered id st else q)
      = if admitted = false ∨ q.inService = false then q
        else if q.queue.length < q.quota then { q with queue := q.queue ++ [id] }
        else ({ q with lossTotal := satInc q.lossTotal, lagging := true } : Port).notify
          (.loss 1 st st (satInc q.lossTotal)) := by
  simp only [Port.offered, Port.hasRoom, decide_eq_true_eq, Port.lose]
  cases admitted <;> cases q.inService <;> simp

/-- Settles O48: offers by `State.offer_eq`, notices by `raiseInto_fresh` and `raiseInto_pending`. -/
theorem recordsAreOfferedToTheirPorts : Obligations.RecordsAreOfferedToTheirPorts := by
  have offered (o : Offer) (u : State) :
      u.offer o = { u with pool := (u.offer o).pool, ports := (u.offer o).ports }
      ∧ (u.offer o).pool.fromEngine = u.pool.fromEngine ∧ (u.offer o).pool.fromMarkers = u.pool.fromMarkers
      ∧ (∀ p : Fin 3, (u.offer o).ports[p] = Port.settle u.tick
          (if o.ports[p] = false ∨ u.ports[p].inService = false then u.ports[p]
          else if u.ports[p].queue.length < u.ports[p].quota then
            { u.ports[p] with queue := u.ports[p].queue ++ [u.pool.next] }
          else ({ u.ports[p] with lossTotal := satInc u.ports[p].lossTotal, lagging := true } : Port).notify
            (.loss 1 o.record.stamp o.record.stamp (satInc u.ports[p].lossTotal))))
      ∧ (∀ n, n = allPorts.countP (fun p => o.ports[p] && u.ports[p].inService
            && decide (u.ports[p].queue.length < u.ports[p].quota)) →
        (u.offer o).pool.entries = if n = 0 then u.pool.entries
          else u.pool.entries ++ [{ id := u.pool.next, record := o.record, refs := n }]) := by
    rw [State.offer_eq]
    refine ⟨rfl, ?_, ?_, fun p => ?_, ?_⟩
    · dsimp only; split <;> rfl
    · dsimp only; split <;> rfl
    · rw [← Port.offered_eq]
      exact State.mapPorts_get p (fun p q => if o.ports[p] then q.offered u.pool.next o.record.stamp else q) u
    · rintro n rfl
      rw [← State.takers_length]
      cases h : u.takers o <;> simp
  refine ⟨?_, ?_, ?_, fun b s => rfl, Port.settle_eq, State.releaseIds_eq⟩
  · intro src o rest s run handed
    cases src with
    | engine =>
      refine ⟨_, congrArg Host.Outcome.next (if_pos run), ?_⟩
      dsimp only at handed ⊢
      rw [handed]
      obtain ⟨whole, engine, markers, ports, entries⟩ := offered o { s with pool := { s.pool with fromEngine := rest } }
      exact ⟨whole, engine, markers, fun p q hq => hq ▸ ports p, entries⟩
    | markers =>
      refine ⟨_, congrArg Host.Outcome.next (if_pos run), ?_⟩
      dsimp only at handed ⊢
      rw [handed]
      obtain ⟨whole, engine, markers, ports, entries⟩ := offered o { s with pool := { s.pool with fromMarkers := rest } }
      exact ⟨whole, engine, markers, fun p q hq => hq ▸ ports p, entries⟩
  · intro src s none
    refine congrArg Host.Outcome.next ?_
    by_cases run : s.running = true
    · cases src <;> refine (if_pos run).trans ?_ <;> dsimp only at none ⊢ <;> rw [none]
    · exact if_neg run
  · rintro b q att rfl
    rw [Port.notify_eq, Port.amend_eq]
    refine ⟨q.inService_iff, fun out => ?_, ?_, ?_⟩
    · rw [out]; exact ⟨rfl, rfl⟩
    · rintro served fresh _ rfl
      rw [served, if_pos rfl, if_pos rfl, (raiseInto_fresh fresh).1, (raiseInto_fresh fresh).2]
      exact ⟨rfl, rfl⟩
    · rintro before n after served notices others same merged hm
      have merge : merged = n.body.merge b := hm.trans (n.body.merge_eq b).symm
      rw [served, if_pos rfl, if_pos rfl, notices, (raiseInto_pending others same).1, (raiseInto_pending others same).2, merge]
      exact ⟨rfl, rfl⟩

/-! ## The rows of the monitor (10 R183, R184, R186) -/

theorem execPowerOn_eq (s : State) :
    execPowerOn s = .next { State.reset with
      pending := s.pending, free := s.free, straps := s.straps, rstnLow := s.rstnLow
      mon := { Monitor.reset with vio := s.mon.vio }
      markers := #v[{ Marker.reset with level := s.markers[0].level }, { Marker.reset with level := s.markers[1].level },
        { Marker.reset with level := s.markers[2].level }, { Marker.reset with level := s.markers[3].level }] } := rfl

theorem State.running_iff (s : State) : s.running = true ↔ s.mon.phase = .run := by
  rw [State.running, beq_iff_eq]

theorem State.not_running_iff (s : State) : s.running = false ↔ s.mon.phase ≠ .run := by
  rw [← Bool.not_eq_true, s.running_iff]

/-- Settles O49: each row turns on the phase. -/
theorem monitorCountsAndStates : Obligations.MonitorCountsAndStates := by
  intro s
  refine ⟨⟨_, execPowerOn_eq s, rfl, fun m => ?_⟩, fun startup => ⟨fun high vio => ?_, fun wait => ?_⟩, fun recovery => ?_,
    fun dip => ?_, fun startup => ⟨fun low => ?_, fun high => ?_⟩, fun first => ?_, fun more => ?_, fun run stop => ?_,
    fun held => ?_, fun other => ?_, fun stopped => ?_, fun other => ?_, fun other => ?_, fun dip startup => ?_,
    fun dip => ?_⟩
  · match m with
    | 0 | 1 | 2 | 3 => rfl
  all_goals refine congrArg Host.Outcome.next ?_
  · exact if_pos (by rw [startup, high, vio]; rfl)
  · refine if_neg ?_
    obtain h | h := wait <;> rw [h] <;> simp
  · exact if_pos recovery
  · rw [dip]
    rfl
  · rw [startup]
    exact congrArg (fun m => { s with mon := m }) (if_pos low)
  · rw [startup]
    exact congrArg (fun m => { s with mon := m }) (if_neg (show ¬s.mon.supplyLow = true by simp [high]))
  · have notDip : s.mon.phase ≠ .dip := by obtain h | ⟨h, -⟩ := first <;> rw [h] <;> decide
    refine (if_neg notDip).trans (if_pos ?_)
    rw [Monitor.beforeFirstRelease]
    obtain h | ⟨h, hc⟩ := first
    · rw [h]; rfl
    · rw [h, hc]; rfl
  · refine if_neg ?_
    rw [Bool.and_eq_true, State.running_iff, decide_eq_true_eq]
    rintro ⟨run, stop⟩
    obtain h | h := more
    · exact h run
    · exact absurd stop (Nat.not_le.2 h)
  · exact if_pos (by rw [Bool.and_eq_true, State.running_iff, decide_eq_true_eq]; exact ⟨run, stop⟩)
  · exact if_neg (by rw [State.running_iff]; exact held)
  · exact if_neg (by simpa using other)
  · exact if_pos (by rw [stopped]; rfl)
  · exact if_neg (by simp [other])
  · exact if_neg other
  · cases h : s.mon.phase <;> first | exact absurd h dip | exact absurd h startup | rfl
  · exact if_pos dip

end Sys2Proof.Machine

/-! PROOF. What an event of the controller leaves: the pulses, the missing pulses and the labels (02). Each action of the
controller is brought to one form, `State.led`, from which its statement follows by `State.isEvent_of_led`. -/

namespace Sys2Proof.Machine

/-! ## The form of an event of the controller -/

theorem sweep_append {α σ : Type} (f : α → σ → σ) (xs ys : List α) (s : σ) :
    sweep f (xs ++ ys) s = sweep f ys (sweep f xs s) := by
  induction xs generalizing s with
  | nil => rfl
  | cons x xs ih => exact ih _

theorem State.sweep_notifyAll_tick (bs : List NoticeBody) (s : State) : (sweep State.notifyAll bs s).tick = s.tick := by
  induction bs generalizing s with
  | nil => rfl
  | cons b bs ih => exact ih _

theorem State.mapPorts_ports (f : Fin 3 → Port → Port) (s : State) : (s.mapPorts f).ports =
    #v[(f 0 s.ports[0]).settle s.tick, (f 1 s.ports[1]).settle s.tick, (f 2 s.ports[2]).settle s.tick] := rfl

/-- The state with another counter and controller, after some notices have been raised. -/
def State.led (t : Timescale) (r : Rollover) (d : Discipline) (bs : List NoticeBody) (s : State) : State :=
  { s with time := t, rolled := r, disc := d, ports := (sweep State.notifyAll bs s).ports }

section
variable {t : Timescale} {r : Rollover} {d : Discipline} {bs : List NoticeBody} {s : State}

theorem State.updDisc_led (f : Discipline → Discipline) : (s.led t r d bs).updDisc f = s.led t r (f d) bs := rfl

theorem State.notifyAll_led (b : NoticeBody) : (s.led t r d bs).notifyAll b = s.led t r d (bs ++ [b]) := by
  have ports : (sweep State.notifyAll (bs ++ [b]) s).ports =
      #v[((sweep State.notifyAll bs s).ports[0].notify b).settle s.tick,
        ((sweep State.notifyAll bs s).ports[1].notify b).settle s.tick,
        ((sweep State.notifyAll bs s).ports[2].notify b).settle s.tick] := by
    rw [sweep_append]
    change ((sweep State.notifyAll bs s).mapPorts fun _ p => p.notify b).ports = _
    rw [State.mapPorts_ports, State.sweep_notifyAll_tick]
  rw [State.led, State.led, ports]
  rfl

theorem State.applyTerms_led (rate slew : Int) : (s.led s.time s.rolled d bs).applyTerms rate slew =
    s.led (s.setIncrement (increment rate slew)).time (s.setIncrement (increment rate slew)).rolled
      { d with rate := rate, slew := slew } bs := rfl

theorem State.correct_led (s : State) (ex : Int) :
    s.correct ex = s.led (s.correct ex).time (s.correct ex).rolled { s.disc with slew := 0 } [] := rfl

theorem State.correct_epoch (s : State) (ex : Int) : (s.correct ex).time.epoch = s.time.epoch + 1 :=
  congrArg (· + 1) (Timescale.reincrement_epoch ..)

theorem State.update_led (s : State) (e : Int) : s.update e =
    s.led (s.setIncrement (increment (s.disc.updated e).rate (s.disc.updated e).slew)).time
      (s.setIncrement (increment (s.disc.updated e).rate (s.disc.updated e).slew)).rolled (s.disc.updated e) [] := rfl

theorem SecpFall.any_isBack (s t : State) (ht : t.secpFell = s.secpFell) (tick : t.tick = s.tick) :
    t.secpFell.any (SecpFall.isBack t.tick t.time.ns) = decide (s.secpBack t) := by
  rw [Bool.eq_iff_iff, ht, tick, decide_eq_true_eq, Option.any_eq_true]
  simp only [SecpFall.isBack_iff]
  exact Iff.rfl

theorem State.raiseQuality_same (same : d.state = s.disc.state ∧ d.suspect = s.disc.suspect) :
    (s.led t r d bs).raiseQuality s.disc.state s.disc.suspect = s.led t r d bs := if_pos same

theorem State.raiseQuality_new (changed : ¬(d.state = s.disc.state ∧ d.suspect = s.disc.suspect))
    (first : d.qualityAt.map Prod.fst ≠ some s.tick) :
    (s.led t r d bs).raiseQuality s.disc.state s.disc.suspect =
      s.led t r { d with qualityAt := some (s.tick, s.disc.state) } (bs ++ [.quality s.disc.state d.state d.suspect]) := by
  rw [← State.notifyAll_led]
  exact (if_neg changed).trans (if_neg first)

theorem State.raiseQuality_again {n : Nat} {before : Quality}
    (changed : ¬(d.state = s.disc.state ∧ d.suspect = s.disc.suspect))
    (second : d.qualityAt = some (n, before)) (now : n = s.tick) :
    (s.led t r d bs).raiseQuality s.disc.state s.disc.suspect = { s.led t r d bs with
      ports := ((sweep State.notifyAll bs s).mapPorts fun _ p => p.amend (.quality before d.state d.suspect)).ports } := by
  have taken : (s.led t r d bs).raiseQuality s.disc.state s.disc.suspect = (s.led t r d bs).mapPorts fun _ p =>
      p.amend (.quality ((d.qualityAt.map Prod.snd).getD s.disc.state) d.state d.suspect) :=
    (if_neg changed).trans (if_pos ((congrArg (Option.map Prod.fst) second).trans (congrArg some now)))
  rw [taken, second, State.mapPorts_ports, State.sweep_notifyAll_tick]
  rfl

theorem State.raised_same {u : State} (same : ¬s.Changed u) : s.raised u bs = sweep State.notifyAll bs s :=
  if_pos same

theorem State.raised_new {u : State} (changed : s.Changed u) (first : s.disc.qualityAt.map Prod.fst ≠ some s.tick) :
    s.raised u bs = sweep State.notifyAll (bs ++ [.quality s.disc.state u.disc.state u.disc.suspect]) s := by
  rw [sweep_append]
  refine (if_neg (not_not.2 changed)).trans ?_
  cases h : s.disc.qualityAt with
  | none => rfl
  | some a => exact if_neg fun now => first (by rw [h, ← now]; rfl)

theorem State.raised_again {u : State} {n : Nat} {before : Quality} (changed : s.Changed u)
    (second : s.disc.qualityAt = some (n, before)) (now : n = s.tick) :
    s.raised u bs = (sweep State.notifyAll bs s).mapPorts fun _ p =>
      p.amend (.quality before u.disc.state u.disc.suspect) := by
  refine (if_neg (not_not.2 changed)).trans ?_
  rw [second]
  exact if_pos now

/-- What was raised in the form, and the controller's note of it (02 R52; log entry 7). -/
theorem State.raiseQuality_led (kept : d.qualityAt = s.disc.qualityAt) {u : State}
    (hu : u = (s.led t r d bs).raiseQuality s.disc.state s.disc.suspect) :
    u = { s with time := t, rolled := r, disc := { d with qualityAt := u.disc.qualityAt }, ports := (s.raised u bs).ports }
    ∧ u.disc.qualityAt = if s.Changed u ∧ s.disc.qualityAt.map Prod.fst ≠ some s.tick then some (s.tick, s.disc.state)
        else s.disc.qualityAt := by
  by_cases same : d.state = s.disc.state ∧ d.suspect = s.disc.suspect
  · rw [State.raiseQuality_same same] at hu
    subst hu
    have unchanged : ¬s.Changed (s.led t r d bs) := not_not.2 same
    rw [State.raised_same unchanged, if_neg fun h => unchanged h.1]
    exact ⟨rfl, kept⟩
  · by_cases first : s.disc.qualityAt.map Prod.fst ≠ some s.tick
    · rw [State.raiseQuality_new same (by rw [kept]; exact first)] at hu
      subst hu
      have changed : s.Changed (s.led t r { d with qualityAt := some (s.tick, s.disc.state) }
        (bs ++ [.quality s.disc.state d.state d.suspect])) := same
      rw [State.raised_new changed first, if_pos ⟨changed, first⟩]
      exact ⟨rfl, rfl⟩
    · obtain ⟨⟨n, before⟩, second, now⟩ := Option.map_eq_some_iff.1 (not_not.1 first)
      rw [State.raiseQuality_again same (kept.trans second) now] at hu
      subst hu
      have changed : s.Changed { s.led t r d bs with
        ports := ((sweep State.notifyAll bs s).mapPorts fun _ p => p.amend (.quality before d.state d.suspect)).ports } :=
        same
      rw [State.raised_again changed second now, if_neg fun h => first h.2]
      exact ⟨rfl, kept⟩

theorem State.raised_tick (u : State) : (s.raised u bs).tick = s.tick := by
  by_cases changed : s.Changed u
  · by_cases first : s.disc.qualityAt.map Prod.fst ≠ some s.tick
    · rw [State.raised_new changed first]
      exact State.sweep_notifyAll_tick ..
    · obtain ⟨⟨n, before⟩, second, now⟩ := Option.map_eq_some_iff.1 (not_not.1 first)
      rw [State.raised_again changed second now]
      exact State.sweep_notifyAll_tick ..
  · rw [State.raised_same changed]
    exact State.sweep_notifyAll_tick ..

theorem State.reread_secp {u : State} (tick : u.tick = s.tick) (fell : u.secpFell = s.secpFell) :
    u.reread = { u.rereadAs u.reading with
      secp := u.secp || decide (s.secpBack u), secpFell := if s.secpBack u then none else u.secpFell } := by
  have back : u.secpFell.any (SecpFall.isBack u.tick u.time.ns) = decide (s.secpBack u) :=
    SecpFall.any_isBack s u fell tick
  rw [State.reread, State.rejudgeSecp]
  change { u.rereadAs u.reading with
    secp := u.secp || u.secpFell.any (SecpFall.isBack u.tick u.time.ns)
    secpFell := if u.secpFell.any (SecpFall.isBack u.tick u.time.ns) = true then none else u.secpFell } = _
  rw [back]
  simp only [decide_eq_true_eq]

/-- An event in the form, with QUALITY and the readings of its tick, is what the statements call one. -/
theorem State.isEvent_of_led {u v : State} (hv : v = (s.led t r d bs).raiseQuality s.disc.state s.disc.suspect)
    (hu : u = v.reread) (kept : d.qualityAt = s.disc.qualityAt) :
    u.disc = { d with qualityAt := u.disc.qualityAt } ∧ u.time = t ∧ u.rolled = r ∧ s.IsEvent u bs := by
  obtain ⟨whole, note⟩ := State.raiseQuality_led kept hv
  have tick : v.tick = s.tick := (congrArg State.tick whole :)
  have fell : v.secpFell = s.secpFell := (congrArg State.secpFell whole :)
  rw [State.reread_secp tick fell] at hu
  subst hu
  have frame (r' : Reading) : v.rereadAs r' = { s.rereadAs r' with
      time := v.time, rolled := v.rolled, disc := v.disc, ports := ((s.raised v bs).rereadAs r').ports } := by
    have ports : ((s.raised v bs).rereadAs r').ports = ({ s with ports := (s.raised v bs).ports }.rereadAs r').ports := by
      simp only [State.rereadAs, State.raised_tick]
    have moved : v = { s with
        time := v.time, rolled := v.rolled, disc := v.disc, ports := (s.raised v bs).ports } := by
      have disc : v.disc = { d with qualityAt := v.disc.qualityAt } := congrArg State.disc whole
      have time : v.time = t := congrArg State.time whole
      have rolled : v.rolled = r := congrArg State.rolled whole
      exact whole.trans (by rw [time, rolled, ← disc])
    rw [ports]
    exact congrArg (State.rereadAs r') moved
  refine ⟨(congrArg State.disc whole :), (congrArg State.time whole :), (congrArg State.rolled whole :), ?_, note⟩
  have secp : v.secp = s.secp := (congrArg State.secp whole :)
  change { v.rereadAs v.reading with
      secp := v.secp || decide (s.secpBack v), secpFell := if s.secpBack v then none else v.secpFell } =
    { s.rereadAs v.reading with
      time := v.time, rolled := v.rolled, disc := v.disc, ports := ((s.raised v bs).rereadAs v.reading).ports
      secp := s.secp || decide (s.secpBack v), secpFell := if s.secpBack v then none else s.secpFell }
  rw [frame, secp, fell]

end

/-! ## The actions of the controller -/

theorem judgePulse_stamp (st : Stamp) : (judgePulse st).stamp = st := by
  rw [judgePulse]
  split <;> rfl

section
variable {s : State} {p : Pulse}

theorem State.beyondStep_iff : s.beyondStep p = true ↔ s.disc.settings.stepNs < p.e.natAbs := decide_eq_true_iff

theorem State.withinLock_iff : s.withinLock p = true ↔ p.e.natAbs ≤ s.disc.settings.lockNs := decide_eq_true_iff

theorem State.not_beyondStep (small : p.e.natAbs ≤ s.disc.settings.stepNs) : s.beyondStep p = false :=
  decide_eq_false (Nat.not_lt.2 small)

theorem State.ifWithinLock (n : Nat) :
    (if s.withinLock p then n else 0) = if p.e.natAbs ≤ s.disc.settings.lockNs then n else 0 := by
  simp only [State.withinLock_iff]

/-- The notice of a pulse that completes reacquisition (02 R42). -/
def Pulse.reacquired (p : Pulse) (done : Bool) : List NoticeBody :=
  if done then [.reference .reacquired .settling (some (p.e, p.stamp))] else []

/-- A pulse that updates and leads to SETTLING (02 R34, R35, R38, R42). -/
theorem State.acquire_update (good : Nat) (done : Bool) (small : p.e.natAbs ≤ s.disc.settings.stepNs) :
    s.UpdatesInto (s.acquire p good done).reread p good (p.reacquired done) := by
  have form : s.acquire p good done = (s.led
      (s.setIncrement (increment (s.disc.updated p.e).rate (s.disc.updated p.e).slew)).time
      (s.setIncrement (increment (s.disc.updated p.e).rate (s.disc.updated p.e).slew)).rolled
      ((s.disc.updated p.e).settling good p.stamp.time) (p.reacquired done)).raiseQuality s.disc.state s.disc.suspect := by
    simp only [State.acquire, State.not_beyondStep small, Bool.false_eq_true, if_false, State.update_led, State.updDisc_led]
    cases done
    · rfl
    · rw [State.notifyAll_led]
      rfl
  obtain ⟨disc, time, rolled, event⟩ := State.isEvent_of_led form rfl rfl
  refine ⟨disc, ?_, event⟩
  rw [disc]
  exact ⟨time, rolled⟩

/-- A pulse that steps and leads to SETTLING (02 R31). -/
theorem State.acquire_step (good : Nat) (done : Bool) (big : s.disc.settings.stepNs < p.e.natAbs) :
    s.StepsInto (s.acquire p good done).reread p (p.reacquired done) := by
  have form : s.acquire p good done = (s.led (s.correct p.ex).time (s.correct p.ex).rolled
      (({ s.disc with slew := 0 } : Discipline).settling 0
        { sec := p.nominal, ns := 0, sub := 0, epoch := s.time.epoch + 1 })
      (p.reacquired done ++ [.timescale .step s.time.epoch (s.time.epoch + 1) (-p.ex) none .settling])).raiseQuality
        s.disc.state s.disc.suspect := by
    rw [State.acquire, State.beyondStep_iff.2 big, ← State.correct_epoch s p.ex]
    rw [State.correct_led]
    cases done
    · simp only [if_true, Bool.false_eq_true, if_false, State.updDisc_led, State.notifyAll_led]
      rfl
    · simp only [if_true, State.updDisc_led, State.notifyAll_led]
      rfl
  obtain ⟨disc, time, rolled, event⟩ := State.isEvent_of_led form rfl rfl
  exact ⟨disc, time, rolled, event⟩

/-- The parts that every fault with a slew has: the slew is cleared, the controller takes the fault, REFERENCE and then
QUALITY are raised (02 R30, R53, R54). -/
theorem State.faults_of_form (kind : ReferenceKind) (pulse : Option (Int × Stamp)) {d d' : Discipline}
    (f : Discipline → Discipline) (taken : f { d with slew := 0 } = { d' with slew := 0 })
    (note : d'.qualityAt = s.disc.qualityAt) (rate : d.rate = s.disc.rate) {u : State}
    (hu : u = ((((s.led s.time s.rolled d []).applyTerms d.rate 0).updDisc f).notifyAll
      (.reference kind (f { d with slew := 0 }).state pulse)).raiseQuality s.disc.state s.disc.suspect) :
    s.Faults u.reread d' kind pulse := by
  rw [State.applyTerms_led, State.updDisc_led, State.notifyAll_led, taken, rate] at hu
  obtain ⟨disc, time, rolled, event⟩ := State.isEvent_of_led hu rfl note
  refine ⟨disc, ⟨time, rolled⟩, ?_⟩
  rw [disc]
  exact event

/-- A fault in SETTLING of a controller that stands as `d` (02 R36). -/
theorem State.settlingFault_faults (kind : ReferenceKind) (pulse : Option (Int × Stamp)) (d : Discipline)
    (note : d.qualityAt = s.disc.qualityAt) (rate : d.rate = s.disc.rate) (state : d.state = s.disc.state)
    (suspect : d.suspect = s.disc.suspect) :
    s.Faults ((s.led s.time s.rolled d []).settlingFault kind pulse).reread d.settlingFaulted kind pulse := by
  refine State.faults_of_form (d := d) kind pulse (fun d =>
    if d.faults = 0 then { d with faults := 1 }
    else { d with state := .freerun, faults := 0, good := 0, silence := none }) ?_ ?_ rate ?_
  · by_cases first : d.faults = 0 <;> simp only [Discipline.settlingFaulted, first, if_true, if_false]
  · by_cases first : d.faults = 0 <;> simp only [Discipline.settlingFaulted, first, if_true, if_false, note]
  · rw [← state, ← suspect]
    rfl

/-- A fault in LOCKED of a controller that stands as `d` (02 R40, R41). -/
theorem State.lockedFault_faults (kind : ReferenceKind) (pulse : Option (Int × Stamp)) (d : Discipline)
    (note : d.qualityAt = s.disc.qualityAt) (rate : d.rate = s.disc.rate) (state : d.state = s.disc.state)
    (suspect : d.suspect = s.disc.suspect) :
    s.Faults ((s.led s.time s.rolled d []).lockedFault kind pulse).reread (d.lockedFaulted s.time.epoch) kind pulse := by
  refine State.faults_of_form (d := d) kind pulse (fun d =>
    if d.suspect then
      { d with state := .holdover, suspect := false, reacquired := 0, age := 0,
               window := d.expected.map fun x => windowAround x.sec (4 * d.settings.windowNs) s.time.epoch }
    else { d with suspect := true }) ?_ ?_ rate ?_
  · cases first : d.suspect <;>
      simp only [Discipline.lockedFaulted, first, if_true, if_false, Bool.false_eq_true, Bool.true_eq_false]
  · cases first : d.suspect <;>
      simp only [Discipline.lockedFaulted, first, if_true, if_false, Bool.true_eq_false, note]
  · have epoch : ((s.led s.time s.rolled d []).applyTerms d.rate 0).time.epoch = s.time.epoch :=
      Timescale.reincrement_epoch ..
    rw [← state, ← suspect, ← epoch]
    rfl

/-- A pending label is carried out (01 R12; 02 R45). -/
theorem State.labelPulse_event (label : Nat) {u : State} (hu : u = (s.labelPulse p label).reread) :
    u.disc = { ({ s.disc with slew := 0, label := none } : Discipline).settling 1
        { sec := label, ns := 0, sub := 0, epoch := s.time.epoch + 1 } with qualityAt := u.disc.qualityAt }
      ∧ u.time = (s.correct p.ex).time.relabel p.nominal label ∧ u.rolled = (s.correct p.ex).rolled
      ∧ s.IsEvent u [.timescale .labelAtPulse s.time.epoch (s.time.epoch + 1)
          (max (-(2 ^ 63 - 1)) (min (2 ^ 63 - 1) (((label : Int) - p.nominal) * 256000000000 - p.ex)))
          (some label) .settling] := by
  have epoch : ((s.correct p.ex).time.relabel p.nominal label).epoch = s.time.epoch + 1 := by
    rw [← State.correct_epoch s p.ex, Timescale.relabel]
    split
    · exact Timescale.put_epoch ..
    · rfl
  have amount : labelAmount label p.nominal p.ex =
      max (-(2 ^ 63 - 1)) (min (2 ^ 63 - 1) (((label : Int) - p.nominal) * 256000000000 - p.ex)) := rfl
  refine State.isEvent_of_led (v := s.labelPulse p label) ?_ hu rfl
  rw [← amount, ← epoch]
  change (((s.led ((s.correct p.ex).time.relabel p.nominal label) (s.correct p.ex).rolled _ []).updDisc _).notifyAll
    _).raiseQuality _ _ = _
  rw [State.updDisc_led, State.notifyAll_led]
  rfl

/-- A good pulse of a controller that stands as `f` makes of it, with no notice of its own (02 R35, R38). -/
theorem State.update_event (f : Discipline → Discipline) (note : (f (s.disc.updated p.e)).qualityAt = s.disc.qualityAt)
    (rate : (f (s.disc.updated p.e)).rate = (s.disc.updated p.e).rate)
    (slew : (f (s.disc.updated p.e)).slew = (s.disc.updated p.e).slew) {u : State}
    (hu : u = (((s.update p.e).updDisc f).raiseQuality s.disc.state s.disc.suspect).reread) :
    u.disc = { f (s.disc.updated p.e) with qualityAt := u.disc.qualityAt }
      ∧ s.CountsWith u (increment u.disc.rate u.disc.slew) ∧ s.IsEvent u [] := by
  rw [State.update_led, State.updDisc_led] at hu
  obtain ⟨disc, time, rolled, event⟩ := State.isEvent_of_led rfl hu note
  refine ⟨disc, ?_, event⟩
  rw [disc]
  dsimp only
  rw [rate, slew]
  exact ⟨time, rolled⟩

end

end Sys2Proof.Machine

/-! PROOF. Pulses in each state of the controller, labels, missing pulses (02). -/

namespace Sys2Proof.Machine

section
variable {s u : State} {p q : Pulse} {k : Fin 32}

/-- The end of a conversion of the reference input takes its pulse (03 R59; 02 R26). -/
theorem State.PulseEnds.exec_eq (ends : s.PulseEnds k q u) :
    exec (.conversionEnd .ref k) s = .next (u.takePulse q.stamp) := by
  obtain ⟨run, v, conv, due, rfl, rfl⟩ := ends
  refine congrArg Host.Outcome.next ?_
  rw [judgePulse_stamp, State.endConversion, conv]
  refine (if_pos (by rw [run]; exact decide_eq_true due)).trans ?_
  cases v.table <;> rfl

theorem State.PulseEnds.judged (ends : s.PulseEnds k q u) : judgePulse q.stamp = q := by
  obtain ⟨_, _, _, _, rfl, _⟩ := ends
  rw [judgePulse_stamp]

theorem State.PulseEnds.exec_judge (ends : s.PulseEnds k q u) (same : q.stamp.epoch = u.time.epoch) :
    exec (.conversionEnd .ref k) s = .next (u.judge q).reread := by
  rw [ends.exec_eq, State.takePulse, if_neg (not_not.2 same), ends.judged]

theorem unitsOf_eq (sec ns sub : Nat) : unitsOf sec ns sub = (sec * 1000000000 + ns) * 256 + sub := rfl

theorem State.isDoublePulse_iff {st : Stamp} {i : Deadline} (instant : s.disc.instant = some i) :
    s.isDoublePulse st = true ↔ i.epoch = s.time.epoch ∧ unitsOf i.sec i.ns i.sub ≤ unitsOf st.sec st.ns st.sub
      ∧ unitsOf st.sec st.ns st.sub < unitsOf i.sec i.ns i.sub + 128000000000 := by
  simp only [State.isDoublePulse, instant, Bool.and_eq_true, beq_iff_eq, decide_eq_true_eq, and_assoc]
  exact Iff.rfl

/-! ## Which action the controller takes (02 R33, R34, R35, R38, R42) -/

theorem State.judge_unset (state : s.disc.state = .unset) (label : s.disc.label = none) : s.judge p = s := by
  simp only [State.judge, state, label]

theorem State.judge_freerun_double (state : s.disc.state = .freerun) (double : s.isDoublePulse p.stamp = true) :
    s.judge p = s := by
  simp only [State.judge, state, double, if_true]

theorem State.judge_freerun (state : s.disc.state = .freerun) (single : s.isDoublePulse p.stamp = false)
    (label : s.disc.label = none) : s.judge p = s.acquire p (if s.withinLock p then 1 else 0) false := by
  simp only [State.judge, state, single, label, Bool.false_eq_true, if_false]

theorem State.judge_settling_double (state : s.disc.state = .settling) (double : s.isDoublePulse p.stamp = true) :
    s.judge p = s.settlingFault .doublePulse (some (p.e, p.stamp)) := by
  simp only [State.judge, state, double, if_true]

theorem State.judge_settling (state : s.disc.state = .settling) (single : s.isDoublePulse p.stamp = false)
    (label : s.disc.label = none) : s.judge p = s.settlingPulse p := by
  simp only [State.judge, state, single, label, Bool.false_eq_true, if_false]

theorem State.judge_locked_outside (state : s.disc.state = .locked) (outside : s.insideWindow p.stamp = false) :
    s.judge p = s.lockedFault .outOfWindow (some (p.e, p.stamp)) := by
  simp only [State.judge, state, outside, Bool.false_eq_true, if_false]

theorem State.judge_locked (state : s.disc.state = .locked) (inside : s.insideWindow p.stamp = true)
    (label : s.disc.label = none) : s.judge p = s.lockedPulse p := by
  simp only [State.judge, state, inside, label, if_true]

theorem State.judge_holdover_outside (state : s.disc.state = .holdover) (outside : s.insideWindow p.stamp = false) :
    s.judge p = s.holdoverFault .outOfWindow (some (p.e, p.stamp)) := by
  simp only [State.judge, state, outside, Bool.false_eq_true, if_false]

theorem State.judge_holdover (state : s.disc.state = .holdover) (inside : s.insideWindow p.stamp = true)
    (label : s.disc.label = none) : s.judge p = s.holdoverPulse p := by
  simp only [State.judge, state, inside, label, if_true]

theorem State.judge_label {l : PendingLabel} (label : s.disc.label = some l)
    (taken : s.disc.state = .unset
      ∨ (s.disc.state = .freerun ∨ s.disc.state = .settling) ∧ s.isDoublePulse p.stamp = false
      ∨ (s.disc.state = .locked ∨ s.disc.state = .holdover) ∧ s.insideWindow p.stamp = true) :
    s.judge p = s.labelPulse p l.value := by
  obtain state | ⟨state | state, single⟩ | ⟨state | state, inside⟩ := taken
  · simp only [State.judge, state, label]
  · simp only [State.judge, state, label, single, Bool.false_eq_true, if_false]
  · simp only [State.judge, state, label, single, Bool.false_eq_true, if_false]
  · simp only [State.judge, state, label, inside, if_true]
  · simp only [State.judge, state, label, inside, if_true]

end

/-- Settles O33: `State.judge` in UNSET and FREERUN, and `State.acquire` by the step threshold. -/
theorem pulsesWithoutLock : Obligations.PulsesWithoutLock := by
  intro k q s u ends
  refine ⟨fun other => ?_, fun same state label => ?_, fun same state => ⟨fun double => ?_, fun single label => ?_⟩,
    fun st i instant => State.isDoublePulse_iff instant⟩
  · rw [ends.exec_eq, State.takePulse, if_pos other]
  · rw [ends.exec_judge same, State.judge_unset state label]
  · rw [ends.exec_judge same, State.judge_freerun_double state double]
  · refine ⟨_, ends.exec_judge same, ?_⟩
    rw [State.judge_freerun state single label, State.ifWithinLock]
    exact ⟨State.acquire_update _ false, State.acquire_step _ false⟩

/-- Settles O34: `State.judge` in SETTLING. -/
theorem pulsesInSettling : Obligations.PulsesInSettling := by
  intro k q s u ends same state
  refine ⟨_, ends.exec_judge same, fun double => ?_, fun single label => ?_⟩
  · rw [State.judge_settling_double state double]
    exact State.settlingFault_faults .doublePulse _ u.disc rfl rfl rfl rfl
  · rw [State.judge_settling state single label, State.settlingPulse]
    refine ⟨fun small near last => ?_, fun small near more => ?_, fun small far => ?_, fun big => ?_⟩
    · rw [if_pos (by simpa [State.not_beyondStep small, State.withinLock_iff.2 near] using last)]
      exact State.update_event (fun d => Discipline.expecting { d with
        state := .locked, suspect := false, good := min (d.good + 1) 16, faults := 0, instant := some q.stamp.time
        silence := none } (q.nominal + 1) 1 u.time.epoch) rfl rfl rfl (by
          have epoch : (u.update q.e).time.epoch = u.time.epoch := Timescale.reincrement_epoch ..
          rw [State.lock, ← epoch]
          rfl)
    · rw [if_neg (by simpa [State.not_beyondStep small, State.withinLock_iff.2 near] using more),
        if_pos (State.withinLock_iff.2 near)]
      exact State.acquire_update _ false small
    · have outside : u.withinLock q = false := decide_eq_false (Nat.not_le.2 far)
      rw [outside, Bool.and_false, Bool.false_and, if_neg Bool.false_ne_true, if_neg Bool.false_ne_true]
      exact State.acquire_update 0 false small
    · rw [State.beyondStep_iff.2 big, Bool.not_true, Bool.false_and, Bool.false_and, if_neg Bool.false_ne_true]
      exact State.acquire_step _ false big

/-- Settles O35: every state that takes the pulse carries the label out. -/
theorem labelsAtPulses : Obligations.LabelsAtPulses := by
  rintro k q l s u v ends same label taken rfl
  refine ⟨_, ends.exec_judge same, ?_⟩
  rw [State.judge_label label taken]
  exact State.labelPulse_event l.value rfl

/-! ## Windows and deadlines (01 R10; 02 R37) -/

theorem timeLe_iff (sec ns sub sec' ns' sub' : Nat) : timeLe sec ns sub sec' ns' sub' = true ↔
    sec < sec' ∨ sec = sec' ∧ (ns < ns' ∨ ns = ns' ∧ sub ≤ sub') := by
  simp [timeLe]

theorem timeLe_iff_unitsOf {sec ns sub sec' ns' sub' : Nat} (hns : ns < 1000000000) (hsub : sub < 256)
    (hns' : ns' < 1000000000) (hsub' : sub' < 256) :
    timeLe sec ns sub sec' ns' sub' = true ↔ unitsOf sec ns sub ≤ unitsOf sec' ns' sub' := by
  rw [timeLe_iff, unitsOf_eq, unitsOf_eq]
  omega

theorem Deadline.reached_iff (d : Deadline) (r : Reading) : d.reached r = true ↔ r.epoch ≠ d.epoch ∨ d.sec < r.sec
    ∨ d.sec = r.sec ∧ (d.ns < r.ns ∨ d.ns = r.ns ∧ d.sub ≤ r.sub) := by
  rw [Deadline.reached, Bool.or_eq_true, bne_iff_ne, timeLe_iff]

theorem State.insideWindow_iff {s : State} {st : Stamp} {w : RefWindow} (window : s.disc.window = some w)
    (open1 : w.openAt.ns < 1000000000) (open2 : w.openAt.sub < 256) (close1 : w.closeAt.ns < 1000000000)
    (close2 : w.closeAt.sub < 256) (ns : st.ns < 1000000000) (sub : st.sub < 256) :
    s.insideWindow st = true ↔ st.epoch = w.openAt.epoch
      ∧ unitsOf w.openAt.sec w.openAt.ns w.openAt.sub ≤ unitsOf st.sec st.ns st.sub
      ∧ unitsOf st.sec st.ns st.sub ≤ unitsOf w.closeAt.sec w.closeAt.ns w.closeAt.sub := by
  rw [State.insideWindow, window, Option.any_some, RefWindow.holds, Bool.and_eq_true, Bool.and_eq_true, beq_iff_eq,
    timeLe_iff_unitsOf open1 open2 ns sub, timeLe_iff_unitsOf ns sub close1 close2, and_assoc]

/-- Settles O36: `State.judge` in LOCKED and HOLDOVER, by the window. -/
theorem pulsesAreJudgedByTheWindow : Obligations.PulsesAreJudgedByTheWindow := by
  rintro k q s u _ ends same rfl
  refine ⟨_, ends.exec_judge same, fun state inside label => ?_, fun state outside => ?_, fun state inside label => ?_,
    fun state outside => ?_, fun w => State.insideWindow_iff⟩
  · rw [State.judge_locked state inside label, State.lockedPulse]
    refine ⟨fun small near => ?_, fun small far => ?_, fun big => ?_⟩
    · rw [State.not_beyondStep small, if_neg Bool.false_ne_true, if_pos (State.withinLock_iff.2 near)]
      have epoch : (u.update q.e).time.epoch = u.time.epoch := Timescale.reincrement_epoch ..
      dsimp only
      rw [epoch]
      exact State.update_event (fun d => { Discipline.expecting d (q.nominal + 1) 1 u.time.epoch with
        suspect := false, instant := some q.stamp.time }) rfl rfl rfl rfl
    · rw [State.not_beyondStep small, if_neg Bool.false_ne_true,
        if_neg (by rw [State.withinLock_iff]; exact Nat.not_le.2 far)]
      exact State.acquire_update 0 false small
    · rw [if_pos (State.beyondStep_iff.2 big)]
      exact State.lockedFault_faults .outlier _
        (Discipline.expecting { u.disc with instant := some q.stamp.time } (q.nominal + 1) 1 u.time.epoch) rfl rfl rfl rfl
  · rw [State.judge_locked_outside state outside]
    exact State.lockedFault_faults .outOfWindow _ u.disc rfl rfl rfl rfl
  · rw [State.judge_holdover state inside label, State.holdoverPulse]
    refine ⟨fun more => ?_, fun last => ?_⟩
    · rw [if_neg (Nat.not_le.2 more)]
      rfl
    · rw [if_pos last, State.ifWithinLock]
      exact ⟨State.acquire_update _ true, State.acquire_step _ true⟩
  · rw [State.judge_holdover_outside state outside]
    rfl

section
variable {s : State} {w : RefWindow} {x : ExpectedSecond}

theorem State.missedWindow_locked (run : s.running = true) (window : s.disc.window = some w)
    (expected : s.disc.expected = some x) (due : w.closeAt.reached s.reading = true) (state : s.disc.state = .locked) :
    s.missedWindow = ((s.updDisc (Discipline.expect (x.sec + 1) 1 s.time.epoch)).lockedFault .missedWindow none).reread := by
  simp only [State.missedWindow, window, expected, run, due, state, Bool.and_self, if_true]

theorem State.missedWindow_holdover (run : s.running = true) (window : s.disc.window = some w)
    (expected : s.disc.expected = some x) (due : w.closeAt.reached s.reading = true) (state : s.disc.state = .holdover) :
    s.missedWindow =
      ((s.updDisc (Discipline.expect (x.sec + 1) 4 s.time.epoch)).holdoverFault .missedWindow none).reread := by
  simp only [State.missedWindow, window, expected, run, due, state, Bool.and_self, if_true]

theorem State.missedWindow_early (window : s.disc.window = some w) (expected : s.disc.expected = some x)
    (early : w.closeAt.reached s.reading = false) : s.missedWindow = s := by
  simp only [State.missedWindow, window, expected, early, Bool.and_false, Bool.false_eq_true, if_false]

theorem State.noPulse_due {d : Deadline} (run : s.running = true) (silence : s.disc.silence = some d)
    (state : s.disc.state = .settling) (due : d.reached s.reading = true) :
    s.noPulse = ((s.updDisc fun x => { x with silence := some { d with sec := d.sec + 2 } }).settlingFault
      .noPulse none).reread := by
  simp only [State.noPulse, silence, run, due, state, beq_self_eq_true, Bool.and_self, if_true]

theorem State.noPulse_early {d : Deadline} (silence : s.disc.silence = some d) (early : d.reached s.reading = false) :
    s.noPulse = s := by
  simp only [State.noPulse, silence, early, Bool.and_false, Bool.false_eq_true, if_false]

end

/-- Settles O37: both deadlines turn on `Deadline.reached`. -/
theorem missingPulsesAreFaults : Obligations.MissingPulsesAreFaults := by
  refine ⟨fun s run => ⟨fun d silence => ⟨fun state due => ⟨_, rfl, ?_⟩, fun early => ?_⟩, fun w x window expected =>
    ⟨fun due => ⟨fun state => ⟨_, rfl, ?_⟩, fun state => ?_⟩, fun early => ?_⟩⟩, Deadline.reached_iff⟩
  · rw [State.noPulse_due run silence state due]
    exact State.settlingFault_faults .noPulse none { s.disc with silence := some { d with sec := d.sec + 2 } }
      rfl rfl rfl rfl
  · exact congrArg Host.Outcome.next (State.noPulse_early silence early)
  · rw [State.missedWindow_locked run window expected due state]
    exact State.lockedFault_faults .missedWindow none (s.disc.expecting (x.sec + 1) 1 s.time.epoch) rfl rfl rfl rfl
  · exact congrArg Host.Outcome.next (State.missedWindow_holdover run window expected due state)
  · exact congrArg Host.Outcome.next (State.missedWindow_early window expected early)

end Sys2Proof.Machine

/-! PROOF. Rollovers and SECP (01 R5, R13, R19; 02 R43, R46). -/

namespace Sys2Proof.Machine

/-! ## Notices depend on the ports and the tick -/

theorem State.sweep_notifyAll_ports {s u : State} (bs : List NoticeBody) (ports : u.ports = s.ports)
    (tick : u.tick = s.tick) : (sweep State.notifyAll bs u).ports = (sweep State.notifyAll bs s).ports := by
  induction bs generalizing s u with
  | nil => exact ports
  | cons b bs ih =>
    refine ih ?_ tick
    change (u.mapPorts _).ports = (s.mapPorts _).ports
    rw [State.mapPorts_ports, State.mapPorts_ports, ports, tick]

theorem State.raised_ports {s u : State} (v : State) (bs : List NoticeBody) (ports : u.ports = s.ports)
    (tick : u.tick = s.tick) (disc : u.disc = s.disc) : (u.raised v bs).ports = (s.raised v bs).ports := by
  have same : u.Changed v ↔ s.Changed v := by rw [State.Changed, State.Changed, disc]
  by_cases changed : s.Changed v
  · by_cases first : s.disc.qualityAt.map Prod.fst ≠ some s.tick
    · rw [State.raised_new changed first, State.raised_new (same.2 changed) (by rw [disc, tick]; exact first), disc,
        State.sweep_notifyAll_ports _ ports tick]
    · obtain ⟨⟨n, before⟩, second, now⟩ := Option.map_eq_some_iff.1 (not_not.1 first)
      rw [State.raised_again changed second now,
        State.raised_again (same.2 changed) ((congrArg Discipline.qualityAt disc).trans second) (now.trans tick.symm),
        State.mapPorts_ports, State.mapPorts_ports, State.sweep_notifyAll_ports _ ports tick,
        State.sweep_notifyAll_tick, State.sweep_notifyAll_tick, tick]
  · rw [State.raised_same changed, State.raised_same (mt same.1 changed), State.sweep_notifyAll_ports _ ports tick]

theorem State.rereadAs_ports_congr {s u : State} (r : Reading) (ports : u.ports = s.ports) (tick : u.tick = s.tick) :
    (u.rereadAs r).ports = (s.rereadAs r).ports := by
  simp only [State.rereadAs, ports, tick]

/-! ## The effects of a rollover -/

/-- A rollover that is taken: SECP has risen, its effects on the controller are still to come. -/
def State.risen (s : State) : State := { s with rolled := .taken, secp := true, secpRise := s.tick, secpFell := none }

theorem Discipline.advanceAge_keeps (d : Discipline) : d.advanceAge.label = d.label ∧ d.advanceAge.rate = d.rate
    ∧ d.advanceAge.qualityAt = d.qualityAt := by
  rw [Discipline.advanceAge]
  split
  · split <;> exact ⟨rfl, rfl, rfl⟩
  · exact ⟨rfl, rfl, rfl⟩

/-- What a fallback overwrites, the advance of the age has not changed otherwise. -/
theorem Discipline.advanceAge_fallback (d : Discipline) :
    ({ d.advanceAge with
        state := .freerun, slew := 0, suspect := false, good := 0, faults := 0, reacquired := 0, age := 0
        expected := none, window := none, silence := none, label := none } : Discipline) =
      { d with
        state := .freerun, slew := 0, suspect := false, good := 0, faults := 0, reacquired := 0, age := 0
        expected := none, window := none, silence := none, label := none } := by
  rw [Discipline.advanceAge]
  split
  · split <;> rfl
  · rfl

theorem State.takeRollover_waiting {s : State} (run : s.running = true) (waiting : s.rolled = .waiting) :
    s.takeRollover = (((s.risen.led s.time .taken s.disc.advanceAge []).labelCheck).raiseQuality
      s.disc.state s.disc.suspect).reread :=
  if_pos (by rw [run, waiting]; rfl)

/-- An event at a rollover, in the form of the statement. -/
theorem State.event_of_risen {s : State} {t : Timescale} {d : Discipline} {bs : List NoticeBody} {u : State}
    (hu : u = ((s.risen.led t .taken d bs).raiseQuality s.disc.state s.disc.suspect).reread)
    (note : d.qualityAt = s.disc.qualityAt) :
    u = { s.rereadAs u.reading with
          time := u.time, secp := true, secpRise := s.tick, secpFell := none, rolled := .taken, disc := u.disc
          ports := u.ports }
    ∧ u.disc = { d with qualityAt := u.disc.qualityAt } ∧ u.time = t
    ∧ u.ports = ((s.raised u bs).rereadAs u.reading).ports := by
  obtain ⟨disc, time, rolled, whole, -⟩ := State.isEvent_of_led (s := s.risen) rfl hu note
  have ports : u.ports = ((s.risen.raised u bs).rereadAs u.reading).ports := (congrArg State.ports whole :)
  refine ⟨?_, disc, time, ?_⟩
  · rw [← ports, rolled] at whole
    refine whole.trans ?_
    change { s.rereadAs u.reading with
      time := u.time, secp := true, secpRise := s.tick, secpFell := if s.risen.secpBack u then none else none
      rolled := .taken, disc := u.disc, ports := u.ports } = _
    rw [ite_self]
  · rw [ports]
    refine State.rereadAs_ports_congr _ (State.raised_ports u bs rfl rfl rfl) ?_
    rw [State.raised_tick, State.raised_tick]
    rfl

theorem State.labelCheck_none {s : State} (label : s.disc.label = none) : s.labelCheck = s := by
  rw [State.labelCheck, label]

theorem State.labelCheck_first {s : State} {l : PendingLabel} (label : s.disc.label = some l) (first : l.rollovers = 0) :
    s.labelCheck = s.updDisc fun d => { d with label := some { value := l.value, rollovers := 1 } } := by
  rw [State.labelCheck, label]
  refine (if_neg (by omega)).trans ?_
  rw [first]

theorem State.labelCheck_second {s : State} {l : PendingLabel} (label : s.disc.label = some l) (second : 1 ≤ l.rollovers) :
    s.labelCheck = s.fallback l.value := by
  rw [State.labelCheck, label]
  exact if_pos second

/-- The counter at a fallback, before the label (02 R46; log entry 5). -/
theorem State.clearSlewAtRollover_led {s : State} {d : Discipline} {v : Timescale} (taken : s.rolled = .taken)
    (hv : v = (if s.time.borrows (increment d.rate 0) then ({ s.time with inc := increment d.rate 0 } : Timescale).put s.time.sec 0
      else s.time.reincrement (increment d.rate 0))) :
    (s.led s.time .taken d []).clearSlewAtRollover = s.led v .taken { d with slew := 0 } [] := by
  have terms : (s.led s.time .taken d []).applyTerms d.rate 0 =
      s.led (s.setIncrement (increment d.rate 0)).time (s.setIncrement (increment d.rate 0)).rolled { d with slew := 0 } [] := by
    rw [← taken]
    exact State.applyTerms_led ..
  have rolled : s.time.borrows (increment d.rate 0) = false → (s.setIncrement (increment d.rate 0)).rolled = .taken := by
    intro short
    change (if s.time.carries _ then s.rolled.forward else if s.time.borrows _ then _ else s.rolled) = _
    rw [taken, short]
    split <;> rfl
  have time : (s.setIncrement (increment d.rate 0)).time = s.time.reincrement (increment d.rate 0) := rfl
  rw [State.clearSlewAtRollover]
  change (if s.time.borrows (increment d.rate 0) then
    { (s.led s.time .taken d []).applyTerms d.rate 0 with
      time := ((s.led s.time .taken d []).applyTerms d.rate 0).time.put s.time.sec 0, rolled := .taken }
    else (s.led s.time .taken d []).applyTerms d.rate 0) = _
  rw [terms]
  cases short : s.time.borrows (increment d.rate 0)
  · rw [if_neg Bool.false_ne_true, rolled short, time, hv, short]
    rfl
  · rw [hv, short, if_pos rfl, if_pos rfl]
    change s.led ((s.time.reincrement (increment d.rate 0)).put s.time.sec 0) .taken { d with slew := 0 } [] = _
    exact congrArg (fun v => s.led v .taken { d with slew := 0 } [])
      (Timescale.put_congr s.time.sec (Timescale.reincrement_inc ..) (Timescale.reincrement_epoch ..) rfl)

/-- A label at a fallback (01 R13; 02 R46). -/
theorem State.fallback_led {s : State} {d : Discipline} {v : Timescale} (label : Nat) (taken : s.rolled = .taken)
    (hv : v = (if s.time.borrows (increment d.rate 0) then ({ s.time with inc := increment d.rate 0 } : Timescale).put s.time.sec 0
      else s.time.reincrement (increment d.rate 0))) :
    (s.led s.time .taken d []).fallback label =
      s.led { v with sec := min label (2 ^ 40 - 1), epoch := v.epoch + 1, excess := 0 } .taken
        { d with
          state := .freerun, slew := 0, suspect := false, good := 0, faults := 0, reacquired := 0, age := 0
          expected := none, window := none, silence := none, label := none }
        [.timescale .labelAtFallback s.time.epoch (v.epoch + 1) (labelAmount label v.sec 0) (some label) .freerun] := by
  rw [State.fallback, State.clearSlewAtRollover_led taken hv]
  exact State.notifyAll_led (s := s) _

theorem State.secpFall_taken {s : State} (run : s.running = true) (high : s.secp = true) (later : s.secpRise < s.tick)
    (beyond : s.disc.settings.secpNs ≤ s.time.ns) : s.secpFall = s.dropSecp :=
  if_pos (by rw [run, high]; simp [later, beyond])

theorem State.secpFall_idle {s : State} (h : s.secp = false ∨ s.tick ≤ s.secpRise ∨ s.time.ns < s.disc.settings.secpNs) :
    s.secpFall = s := by
  refine if_neg ?_
  simp only [Bool.and_eq_true, decide_eq_true_eq]
  rintro ⟨⟨⟨-, high⟩, later⟩, beyond⟩
  obtain low | early | short := h
  · rw [low] at high; cases high
  · omega
  · omega

/-- Settles O22: the effects of a rollover in the form of an event, and SECP by its rise and its width. -/
theorem rolloverEffectsAndSecp : Obligations.RolloverEffectsAndSecp := by
  refine ⟨fun s run idle => ⟨fun next => ?_, fun no => ?_⟩, ?_, fun s run => ⟨fun high later beyond => ?_, fun h => ?_⟩,
    fun s => ⟨fun back => ?_, fun short => ?_⟩⟩
  · rw [exec_rollover s run, State.rollOver_next s idle next]
  · rw [exec_rollover s run, State.rollOver_not s idle no]
  · rintro s t inc v run waiting ht rfl hv
    rw [State.takeRollover_waiting run waiting] at ht
    obtain ⟨labelKept, rateKept, noteKept⟩ := s.disc.advanceAge_keeps
    have exec : exec .rollover s = .next t := by
      rw [exec_rollover s run, State.rollOver_waiting s waiting, State.takeRollover_waiting run waiting, ht]
    rcases label : s.disc.label with - | l
    · rw [State.labelCheck_none (labelKept.trans label)] at ht
      obtain ⟨whole, disc, time, ports⟩ := State.event_of_risen ht noteKept
      refine ⟨exec, whole, ?_, fun l h => nomatch h⟩
      rintro _ rfl
      exact ⟨fun _ => ⟨disc, time, ports⟩, fun l h => nomatch h⟩
    · by_cases first : l.rollovers = 0
      · rw [State.labelCheck_first (labelKept.trans label) first, State.updDisc_led] at ht
        obtain ⟨whole, disc, time, ports⟩ := State.event_of_risen ht noteKept
        refine ⟨exec, whole, ?_, fun l' h second => ?_⟩
        · rintro _ rfl
          refine ⟨fun h => (nomatch h), fun l' h _ => ?_⟩
          obtain rfl := Option.some.inj h
          exact ⟨disc, time, ports⟩
        · obtain rfl := Option.some.inj h
          omega
      · have fell := State.fallback_led (s := s.risen) (v := v) (d := s.disc.advanceAge) l.value rfl (by rw [rateKept]; exact hv)
        rw [s.disc.advanceAge_fallback] at fell
        rw [State.labelCheck_second (labelKept.trans label) (by omega)] at ht
        replace ht := ht.trans (congrArg (fun x : State => (x.raiseQuality s.disc.state s.disc.suspect).reread) fell)
        obtain ⟨whole, disc, time, ports⟩ := State.event_of_risen ht rfl
        have epoch : v.epoch = s.time.epoch := by
          rw [hv]
          split
          · exact Timescale.put_epoch ..
          · exact Timescale.reincrement_epoch ..
        refine ⟨exec, whole, ?_, fun l' h _ => ?_⟩
        · rintro _ rfl
          refine ⟨fun h => (nomatch h), fun l' h zero => ?_⟩
          obtain rfl := Option.some.inj h
          exact absurd zero first
        · obtain rfl := Option.some.inj h
          rw [epoch] at time ports
          refine ⟨disc, time, ?_⟩
          rw [ports, labelAmount, Int.sub_zero]
          rfl
  · exact congrArg Host.Outcome.next (State.secpFall_taken run high later beyond)
  · exact congrArg Host.Outcome.next (State.secpFall_idle h)
  · rw [State.reread_secp rfl rfl, decide_eq_true back, if_pos back, Bool.or_true]
  · rw [State.reread_secp rfl rfl, decide_eq_false short, if_neg short, Bool.or_false]
    rfl

end Sys2Proof.Machine

/-! PROOF. The line receivers: the parse of a frame (04 R83 to R86), line states, the end and the start of a frame, and
the hand-off (04 R75 to R80, R87). -/

namespace Sys2Proof.Machine

/-! ## The parse of a frame -/

section
variable (i : Nat) (d : List Byte)

theorem drop_eq_cons {i : Nat} {d : List Byte} (h : i < d.length) : d.drop i = d[i] :: d.drop (i + 1) :=
  List.drop_eq_getElem_cons h

theorem numberAt_one {i : Nat} {d : List Byte} (h : i < d.length) : numberAt i 1 d = d[i].toNat := by
  rw [numberAt, drop_eq_cons h]
  simp only [List.take_succ_cons, List.take_zero, List.foldl_cons, List.foldl_nil, Nat.zero_mul, Nat.zero_add]

theorem numberAt_two {i : Nat} {d : List Byte} (h : i + 1 < d.length) :
    numberAt i 2 d = d[i].toNat * 256 + d[i + 1].toNat := by
  rw [numberAt, drop_eq_cons (by omega), drop_eq_cons h]
  simp only [List.take_succ_cons, List.take_zero, List.foldl_cons, List.foldl_nil, Nat.zero_mul, Nat.zero_add]

theorem numberAt_four {i : Nat} {d : List Byte} (h : i + 3 < d.length) :
    numberAt i 4 d = numberAt i 2 d * 65536 + numberAt (i + 2) 2 d := by
  rw [numberAt_two (by omega), numberAt_two (by omega), numberAt, drop_eq_cons (by omega), drop_eq_cons (by omega),
    drop_eq_cons (by omega), drop_eq_cons (by omega)]
  simp only [List.take_succ_cons, List.take_zero, List.foldl_cons, List.foldl_nil, Nat.add_assoc, Nat.reduceAdd]
  omega

theorem field16_eq : field16 i d = if d.length < i + 2 then none else some (numberAt i 2 d) := by
  by_cases short : d.length < i + 2
  · rw [if_pos short, field16, List.getElem?_eq_none (i := i + 1) (by omega)]
    cases d[i]? <;> rfl
  · rw [if_neg short, field16, List.getElem?_eq_getElem (i := i) (by omega), List.getElem?_eq_getElem (i := i + 1) (by omega),
      numberAt_two (by omega)]

theorem field32_eq : field32 i d = if d.length < i + 4 then none else some (numberAt i 4 d) := by
  rw [field32, field16_eq, field16_eq]
  by_cases short : d.length < i + 4
  · rw [if_pos short, if_pos (show d.length < i + 2 + 2 from short)]
    cases (if d.length < i + 2 then none else some (numberAt i 2 d)) <;> rfl
  · rw [if_neg short, if_neg (show ¬d.length < i + 2 + 2 from short), if_neg (by omega), numberAt_four (by omega)]

end

/-- The key and the payload, the header's checks having passed (04 R85). -/
theorem parseUdp_eq {d : List Byte} {h ihl total : Nat} (long : 5 ≤ ihl) :
    parseUdp d h ihl total =
      if d.length < h + 4 * ihl + 4 then .unkeyed .headerCut
      else .keyed { addr := BitVec.ofNat 32 (numberAt (h + 16) 4 d), port := BitVec.ofNat 16 (numberAt (h + 4 * ihl + 2) 2 d) }
        (min (h + total) d.length - (h + 4 * ihl + 8))
        ((d.drop (h + 4 * ihl + 8)).take (min 259 (min (h + total) d.length - (h + 4 * ihl + 8)))) := by
  rw [parseUdp, field32_eq, field16_eq]
  by_cases short : d.length < h + 4 * ihl + 4
  · rw [if_pos short, if_pos (show d.length < h + 4 * ihl + 2 + 2 from short)]
    cases (if d.length < h + 16 + 4 then none else some (numberAt (h + 16) 4 d)) <;> rfl
  · rw [if_neg short, if_neg (show ¬d.length < h + 4 * ihl + 2 + 2 from short), if_neg (by omega), Nat.min_comm 259]

/-- The checks of the IPv4 header at byte `h` (04 R84, R86). -/
theorem parseIp_eq (d : List Byte) (h : Nat) : parseIp d h =
    if d.length < h + 1 then .unkeyed .headerCut
    else if numberAt h 1 d / 16 ≠ 4 then .unkeyed .notIpv4
    else if numberAt h 1 d % 16 < 5 then .unkeyed .badHeader
    else if d.length < h + 4 then .unkeyed .headerCut
    else if numberAt (h + 2) 2 d < 4 * (numberAt h 1 d % 16) + 8 then .unkeyed .badHeader
    else if d.length < h + 8 then .unkeyed .headerCut
    else if numberAt (h + 6) 2 d % 2 ^ 13 ≠ 0 then .unkeyed .fragment
    else if d.length < h + 10 then .unkeyed .headerCut
    else if numberAt (h + 9) 1 d ≠ 17 then .unkeyed .notUdp
    else parseUdp d h (numberAt h 1 d % 16) (numberAt (h + 2) 2 d) := by
  by_cases c1 : d.length < h + 1
  · rw [if_pos c1, parseIp, List.getElem?_eq_none (by omega)]
  rw [if_neg c1, parseIp, List.getElem?_eq_getElem (by omega), numberAt_one (by omega)]
  dsimp only
  refine if_congr Iff.rfl rfl (if_congr Iff.rfl rfl ?_)
  rw [field16_eq]
  by_cases c2 : d.length < h + 4
  · rw [if_pos c2, if_pos (show d.length < h + 2 + 2 from c2)]
  rw [if_neg c2, if_neg (show ¬d.length < h + 2 + 2 from c2)]
  refine if_congr Iff.rfl rfl ?_
  rw [field16_eq]
  by_cases c3 : d.length < h + 8
  · rw [if_pos c3, if_pos (show d.length < h + 6 + 2 from c3)]
  rw [if_neg c3, if_neg (show ¬d.length < h + 6 + 2 from c3)]
  refine if_congr Iff.rfl rfl ?_
  by_cases c4 : d.length < h + 10
  · rw [if_pos c4, List.getElem?_eq_none (by omega)]
  · rw [if_neg c4, List.getElem?_eq_getElem (by omega), numberAt_one (by omega)]

theorem parseFrame_eq (d : List Byte) : parseFrame d = parsed d := by
  have ip (h : Nat) : parseIp d h =
      if d.length < h + 1 then .unkeyed .headerCut
      else if numberAt h 1 d / 16 ≠ 4 then .unkeyed .notIpv4
      else if numberAt h 1 d % 16 < 5 then .unkeyed .badHeader
      else if d.length < h + 4 then .unkeyed .headerCut
      else if numberAt (h + 2) 2 d < 4 * (numberAt h 1 d % 16) + 8 then .unkeyed .badHeader
      else if d.length < h + 8 then .unkeyed .headerCut
      else if numberAt (h + 6) 2 d % 2 ^ 13 ≠ 0 then .unkeyed .fragment
      else if d.length < h + 10 then .unkeyed .headerCut
      else if numberAt (h + 9) 1 d ≠ 17 then .unkeyed .notUdp
      else if d.length < h + 4 * (numberAt h 1 d % 16) + 4 then .unkeyed .headerCut
      else .keyed { addr := BitVec.ofNat 32 (numberAt (h + 16) 4 d)
                    port := BitVec.ofNat 16 (numberAt (h + 4 * (numberAt h 1 d % 16) + 2) 2 d) }
        (min (h + numberAt (h + 2) 2 d) d.length - (h + 4 * (numberAt h 1 d % 16) + 8))
        ((d.drop (h + 4 * (numberAt h 1 d % 16) + 8)).take
          (min 259 (min (h + numberAt (h + 2) 2 d) d.length - (h + 4 * (numberAt h 1 d % 16) + 8)))) := by
    rw [parseIp_eq]
    by_cases long : numberAt h 1 d % 16 < 5
    · simp only [long, if_true]
    · rw [parseUdp_eq (Nat.not_lt.1 long)]
  rw [parseFrame, field16_eq]
  by_cases short : d.length < 14
  · rw [if_pos (show d.length < 12 + 2 from short)]
    exact (if_pos short).symm
  rw [if_neg (show ¬d.length < 12 + 2 from short)]
  by_cases plain : numberAt 12 2 d = 2048
  · refine (if_pos plain).trans ((ip 14).trans ?_)
    have untagged : ¬numberAt 12 2 d = 33024 := by omega
    rw [parsed, if_neg untagged]
    simp only [short, plain, if_false, ne_eq, not_true, false_and, Nat.reduceEqDiff]
  by_cases tagged : numberAt 12 2 d = 33024
  · refine (if_neg plain).trans ((if_pos tagged).trans ?_)
    rw [parsed, if_pos tagged, field16_eq]
    simp only [short, tagged, if_false, ne_eq, not_true, and_false, true_and]
    by_cases c : d.length < 18
    · rw [if_pos (show d.length < 16 + 2 from c), if_pos c]
    rw [if_neg (show ¬d.length < 16 + 2 from c), if_neg c]
    by_cases inner : numberAt 16 2 d = 2048
    · refine (if_pos inner).trans ((ip 18).trans ?_)
      have once : ¬numberAt 16 2 d = 33024 := by omega
      simp only [inner, if_false, not_true, Nat.reduceEqDiff]
    · exact (if_neg inner).trans (by simp only [inner, not_false_eq_true, if_true])
  · refine (if_neg plain).trans ((if_neg tagged).trans ?_)
    rw [parsed, if_neg tagged]
    simp only [short, plain, tagged, if_false, ne_eq, not_false_eq_true, and_self, if_true]

theorem Parse.outcome_eq (p : Parse) : p.progress.outcome p.fields = p := by cases p <;> rfl

end Sys2Proof.Machine

/-! PROOF. Line states, the end and the start of a frame, and the hand-off (04 R75 to R80, R87). -/

namespace Sys2Proof.Machine

/-! ## One line replaced -/

section
variable {l : Fin 8} {s : State}

/-- The state with line `l` replaced. -/
def State.putLine (l : Fin 8) (x : Line) (s : State) : State := { s with lines := s.lines.set l x }

theorem State.updLine_eq (f : Line → Line) : s.updLine l f = s.putLine l (f s.lines[l]) := rfl

theorem State.putLine_lines (x : Line) : (s.putLine l x).lines[l] = x := by
  simp [State.putLine]

theorem State.updLine_putLine (x : Line) (f : Line → Line) : (s.putLine l x).updLine l f = s.putLine l (f x) := by
  rw [State.updLine_eq, State.putLine_lines, State.putLine, State.putLine, State.putLine, Vector.set_set]

theorem State.putLine_self : s.putLine l s.lines[l] = s := by
  simp [State.putLine]

theorem State.lineStates_eq (s : State) : s.lineStates = s.lines.map Line.state := by
  refine Vector.ext fun k hk => ?_
  rw [Vector.getElem_map]
  match k, hk with
  | 0, _ | 1, _ | 2, _ | 3, _ | 4, _ | 5, _ | 6, _ | 7, _ => rfl

theorem State.lineStates_get (s : State) (k : Fin 8) : s.lineStates[k] = s.lines[k].state := by
  rw [State.lineStates_eq, Fin.getElem_fin, Vector.getElem_map]
  rfl

theorem State.lineStates_putLine (x : Line) : (s.putLine l x).lineStates = s.lineStates.set l x.state := by
  rw [State.lineStates_eq, State.lineStates_eq, State.putLine, Vector.map_set]

theorem State.setLineState_same {st : LineState} (same : s.lines[l].state = st) : s.setLineState l st = s := if_pos same

/-- A line that moves to another state: LINE is raised with the states of all lines (04 R77). -/
theorem State.setLineState_new {st : LineState} {x : Line} (new : x.state ≠ st) :
    (s.putLine l x).setLineState l st =
      (s.putLine l { x with state := st }).notifyAll (.line l x.state st (s.lineStates.set l st)) := by
  refine (if_neg (by rw [State.putLine_lines]; exact new)).trans ?_
  dsimp only
  rw [State.updLine_putLine, State.putLine_lines, State.lineStates_putLine]

/-! ## Hand-off (04 R87) -/

theorem Frame.arrival_waiting {f : Frame} (waits : f.ended = none ∨ f.stamp = none) : f.arrival l = none := by
  rw [Frame.arrival]
  obtain h | h := waits <;> rw [h]
  cases f.ended <;> rfl

theorem Frame.ready_waiting {f : Frame} (waits : f.ended = none ∨ f.stamp = none) : f.ready = false := by
  rw [Frame.ready]
  obtain h | h := waits <;> rw [h]
  · rfl
  · exact Bool.and_false _

theorem Frame.arrival_ready {f : Frame} {v : Verdict} {st : Stamp} (ended : f.ended = some v) (stamp : f.stamp = some st) :
    f.arrival l =
      some { line := l, stamp := st, length := f.count, verdict := v, parse := f.progress.outcome f.fields } := by
  rw [Frame.arrival, ended, stamp]

theorem Frame.ready_ready {f : Frame} {v : Verdict} {st : Stamp} (ended : f.ended = some v) (stamp : f.stamp = some st) :
    f.ready = true := by
  rw [Frame.ready, ended, stamp]
  rfl

theorem filterMap_arrival_waiting {fs : List Frame} (wait : ∀ f ∈ fs, f.ended = none ∨ f.stamp = none) :
    fs.filterMap (Frame.arrival l) = [] ∧ fs.filter (fun f => !f.ready) = fs := by
  constructor
  · exact List.filterMap_eq_nil_iff.2 fun f hf => Frame.arrival_waiting (wait f hf)
  · exact List.filter_eq_self.2 fun f hf => by rw [Frame.ready_waiting (wait f hf)]; rfl

/-- Nothing is handed off where every frame waits for its end or its stamp. -/
theorem State.handOff_waiting {x : Line} (wait : ∀ f ∈ x.frames, f.ended = none ∨ f.stamp = none) :
    (s.putLine l x).handOff l = s.putLine l x := by
  obtain ⟨nothing, all⟩ := filterMap_arrival_waiting (l := l) wait
  rw [State.handOff, State.updLine_putLine, State.putLine_lines, nothing, all]
  change { s.putLine l x with arrivals := s.arrivals.set l (s.arrivals[l] ++ []) } = _
  rw [List.append_nil, Fin.getElem_fin, Vector.set_getElem_self]
  rfl

/-- The one frame of a line that is ready is handed off, whichever wait before and after it (04 R87). -/
theorem State.handOff_one {x : Line} {before after : List Frame} {f : Frame} {v : Verdict} {st : Stamp}
    (frames : x.frames = before ++ f :: after) (ended : f.ended = some v) (stamp : f.stamp = some st)
    (wait : ∀ b, b ∈ before ∨ b ∈ after → b.ended = none ∨ b.stamp = none) :
    (s.putLine l x).handOff l =
      { s.putLine l { x.counted v st with frames := before ++ after } with
        arrivals := s.arrivals.set l (s.arrivals[l] ++
          [{ line := l, stamp := st, length := f.count, verdict := v, parse := f.progress.outcome f.fields }]) } := by
  obtain ⟨noneBefore, allBefore⟩ := filterMap_arrival_waiting (l := l) fun b hb => wait b (.inl hb)
  obtain ⟨noneAfter, allAfter⟩ := filterMap_arrival_waiting (l := l) fun b hb => wait b (.inr hb)
  rw [State.handOff, State.updLine_putLine, State.putLine_lines, frames, List.filterMap_append, List.filterMap_cons,
    Frame.arrival_ready ended stamp, noneBefore, noneAfter, List.filter_append, List.filter_cons, allBefore, allAfter,
    Frame.ready_ready ended stamp]
  rfl

/-! ## The end of a frame (04 R75, R78, R79) -/

theorem Frame.isOpen_iff (f : Frame) : f.isOpen = true ↔ f.ended = none := Option.isNone_iff_eq_none

theorem Frame.endWith_eq {f : Frame} {bytes : List Byte} {early : Bool} {v : Verdict} (fits : bytes.length ≤ 65535)
    (hv : verdictOf bytes (early && decide (bytes.length < 65535)) = v) :
    f.endWith bytes early =
      { f with
        count := bytes.length, progress := (parseFrame (bytes.take (bytes.length - 4))).progress
        fields := (parseFrame (bytes.take (bytes.length - 4))).fields, ended := some v } := by
  rw [Frame.endWith, List.take_of_length_le fits, hv]

theorem State.endFrame_idle {bytes : List Byte} {early : Bool} (noOpen : s.lines[l].frames.any Frame.isOpen = false) :
    s.endFrame l bytes early = s := if_neg (by rw [noOpen]; exact Bool.false_ne_true)

theorem State.notifyAll_handOff (b : NoticeBody) : (s.notifyAll b).handOff l = (s.handOff l).notifyAll b := rfl

/-- The end of the open frame (04 R75, R77, R78, R87). -/
theorem State.endFrame_openLast {bytes : List Byte} {early : Bool} {v : Verdict} {before : List Frame} {f : Frame}
    (last : s.OpenLast l before f) (fits : bytes.length ≤ 65535)
    (hv : verdictOf bytes (early && decide (bytes.length < 65535)) = v) :
    s.endFrame l bytes early = s.frameEnded l before f bytes v := by
  obtain ⟨receives, frames, isOpen, waiting⟩ := last
  have some_open : s.lines[l].frames.any Frame.isOpen = true := by
    rw [frames, List.any_append, List.any_cons, (Frame.isOpen_iff f).2 isOpen, Bool.true_or, Bool.or_true]
  have closed : before.map (fun b => if b.isOpen then b.endWith bytes early else b) = before := by
    refine (List.map_congr_left fun b hb => if_neg ?_).trans (List.map_id' before)
    rw [Frame.isOpen_iff]
    exact (waiting b hb).1
  obtain ⟨g, hg⟩ : ∃ g, g = ({ f with
      count := bytes.length, progress := (parseFrame (bytes.take (bytes.length - 4))).progress
      fields := (parseFrame (bytes.take (bytes.length - 4))).fields, ended := some v } : Frame) := ⟨_, rfl⟩
  obtain ⟨x, hx⟩ : ∃ x, x = ({ s.lines[l] with
      frames := before ++ [g], quiet := some (s.tick + s.lines[l].settings.quietMs * 400000) } : Line) := ⟨_, rfl⟩
  have ends : s.endFrame l bytes early = ((s.putLine l x).setLineState l .live).handOff l := by
    refine (if_pos some_open).trans ?_
    rw [hx, hg, ← Frame.endWith_eq fits hv]
    dsimp only
    rw [State.updLine_eq, frames, List.map_append, closed, List.map_singleton, (Frame.isOpen_iff f).2 isOpen]
    rfl
  have handed : (s.putLine l { x with state := .live }).handOff l = (match f.stamp with
      | some st => { s with
          lines := s.lines.set l { ({ s.lines[l] with
            state := .live, quiet := some (s.tick + s.lines[l].settings.quietMs * 400000) } : Line).counted v st with
              frames := before }
          arrivals := s.arrivals.set l (s.arrivals[l] ++
            [{ line := l, stamp := st, length := bytes.length, verdict := v
               parse := parseFrame (bytes.take (bytes.length - 4)) }]) }
      | none => { s with
          lines := s.lines.set l { s.lines[l] with
            state := .live, quiet := some (s.tick + s.lines[l].settings.quietMs * 400000)
            frames := before ++ [g] } }) := by
    cases stamp : f.stamp with
    | none =>
      rw [State.handOff_waiting, hx]
      · rfl
      · intro b hb
        rw [hx] at hb
        obtain hb | hb := List.mem_append.1 hb
        · exact .inr (waiting b hb).2
        · rw [List.mem_singleton.1 hb, hg]
          exact .inr stamp
    | some st =>
      rw [State.handOff_one (f := g) (after := []) (v := v) (st := st) (before := before) (by rw [hx]) (by rw [hg])
        (by rw [hg]; exact stamp) fun b hb => .inr (waiting b (hb.resolve_right List.not_mem_nil)).2, hx, hg,
        Parse.outcome_eq, List.append_nil]
      rfl
  rw [ends, State.frameEnded]
  dsimp only
  have state : x.state = s.lines[l].state := by rw [hx]
  by_cases live : s.lines[l].state = .live
  · have same : ({ x with state := .live } : Line) = x := by rw [← live, ← state]
    rw [State.setLineState_same (by rw [State.putLine_lines, state, live]), ← same, handed, if_pos live, hg] <;> rfl
  · rw [State.setLineState_new (by rw [state]; exact live), State.notifyAll_handOff, handed, if_neg live, state, hg] <;> rfl

/-- The end of a frame changes of the lines only the one, which is LIVE after it. -/
theorem State.frameEnded_lines (before : List Frame) (f : Frame) (bytes : List Byte) (v : Verdict) :
    ∃ x : Line, x.state = .live ∧ (s.frameEnded l before f bytes v).lines = s.lines.set l x := by
  cases stamp : f.stamp <;> by_cases live : s.lines[l].state = .live <;>
    simp only [State.frameEnded, stamp, live, if_true, if_false] <;> exact ⟨_, rfl, rfl⟩

/-! ## Changes of the state of a line (04 R75, R76, R77) -/

theorem State.setLineState_upd {u : State} {st : LineState} {f : Line → Line} (new : (f u.lines[l]).state ≠ st) :
    (u.updLine l f).setLineState l st = (u.updLine l fun x => { f x with state := st }).notifyAll
      (.line l (f u.lines[l]).state st (u.lineStates.set l st)) := State.setLineState_new new

theorem State.lineStates_set {u : State} {x : Line} (lines : u.lines = s.lines.set l x) (st : LineState) :
    u.lineStates.set l st = s.lineStates.set l st := by
  rw [State.lineStates_eq, State.lineStates_eq, lines, Vector.map_set, Vector.set_set]

theorem Line.receiving_iff (x : Line) : x.receiving = true ↔ x.state = .quiet ∨ x.state = .live := by
  rw [Line.receiving, Bool.or_eq_true, beq_iff_eq, beq_iff_eq]

theorem Line.not_receiving {x : Line} (rest : x.state = .disabled ∨ x.state = .dark) : x.receiving = false := by
  rw [Line.receiving]
  obtain h | h := rest <;> rw [h] <;> rfl

theorem State.lockGained_dark (run : s.running = true) (released : s.rstnAsserted = false)
    (dark : s.lines[l].state = .dark) :
    s.lockGained l = (s.updLine l fun x => { x with lock := true }).setLineState l .quiet :=
  if_pos (by rw [run, released, dark]; rfl)

theorem State.lockGained_idle (idle : s.rstnAsserted = true ∨ s.lines[l].state ≠ .dark) : s.lockGained l = s := by
  refine if_neg ?_
  simp only [Bool.and_eq_true, Bool.not_eq_true', beq_iff_eq]
  rintro ⟨⟨-, released⟩, dark⟩
  obtain h | h := idle
  · rw [h] at released; cases released
  · exact h dark

theorem State.lockLost_receiving {bytes : List Byte} (run : s.running = true)
    (receives : s.lines[l].state = .quiet ∨ s.lines[l].state = .live) :
    s.lockLost l bytes = ((s.endFrame l bytes true).updLine l fun x => { x with lock := false, quiet := none }).setLineState
      l .dark :=
  if_pos (by rw [run, (Line.receiving_iff _).2 receives]; rfl)

theorem State.lockLost_idle {bytes : List Byte} (rest : s.lines[l].state = .disabled ∨ s.lines[l].state = .dark) :
    s.lockLost l bytes = s := if_neg (by rw [Line.not_receiving rest, Bool.and_false]; exact Bool.false_ne_true)

theorem State.quietExpiry_due {n : Nat} (run : s.running = true) (live : s.lines[l].state = .live)
    (timer : s.lines[l].quiet = some n) (due : n ≤ s.tick) :
    s.quietExpiry l = (s.updLine l fun x => { x with quiet := none }).setLineState l .quiet :=
  if_pos (by rw [run, live, timer]; simpa using due)

theorem State.quietExpiry_idle (idle : s.lines[l].state ≠ .live ∨ ∀ n ∈ s.lines[l].quiet, s.tick < n) :
    s.quietExpiry l = s := by
  refine if_neg ?_
  simp only [Bool.and_eq_true, beq_iff_eq, Option.any_eq_true, decide_eq_true_eq]
  rintro ⟨⟨-, live⟩, n, timer, due⟩
  obtain h | h := idle
  · exact h live
  · exact absurd due (Nat.not_le.2 (h n timer))

theorem verdictOf_early {bytes : List Byte} (fits : bytes.length < 65535) :
    verdictOf bytes (true && decide (bytes.length < 65535)) = .truncated := by
  rw [decide_eq_true fits]
  rfl

end

/-- Settles O38: each event brings the line to another state by `State.setLineState`. -/
theorem lineStatesFollowTheLink : Obligations.LineStatesFollowTheLink := by
  intro l bytes s run
  have receives_ne_dark (h : s.lines[l].state = .quiet ∨ s.lines[l].state = .live) : s.lines[l].state ≠ .dark := by
    obtain h | h := h <;> rw [h] <;> decide
  refine ⟨fun released dark => ?_, fun idle => ?_, fun receives noOpen => ?_, fun before f last fits => ?_, fun rest => ?_,
    fun n live timer due => ?_, fun idle => ?_, Frame.isOpen_iff, s.lineStates_get⟩
  · rintro _ rfl
    refine congrArg Host.Outcome.next ?_
    rw [State.lockGained_dark run released dark, State.setLineState_upd (by dsimp only; rw [dark]; decide)]
    dsimp only
    rw [dark]
  · exact congrArg Host.Outcome.next (State.lockGained_idle idle)
  · rintro _ rfl
    refine congrArg Host.Outcome.next ?_
    rw [State.lockLost_receiving run receives, State.endFrame_idle noOpen,
      State.setLineState_upd (receives_ne_dark receives)]
  · rintro _ rfl
    refine congrArg Host.Outcome.next ?_
    obtain ⟨x, live, lines⟩ := State.frameEnded_lines (l := l) (s := s) before f bytes .truncated
    have state : (s.frameEnded l before f bytes .truncated).lines[l].state = .live := by
      rw [lines]
      simpa using live
    rw [State.lockLost_receiving run last.1, State.endFrame_openLast last fits.le (verdictOf_early fits),
      State.setLineState_upd (by dsimp only; rw [state]; decide)]
    dsimp only
    rw [state, State.lineStates_set lines]
  · exact congrArg Host.Outcome.next (State.lockLost_idle rest)
  · rintro _ rfl
    refine congrArg Host.Outcome.next ?_
    rw [State.quietExpiry_due run live timer due, State.setLineState_upd (by dsimp only; rw [live]; decide)]
    dsimp only
    rw [live]
  · exact congrArg Host.Outcome.next (State.quietExpiry_idle idle)

/-! ## The start of a frame (04 R73, R78) -/

section
variable {l : Fin 8} {s : State} {bytes : List Byte}

theorem State.startFrame_receiving (run : s.running = true)
    (receives : s.lines[l].state = .quiet ∨ s.lines[l].state = .live)
    (first : ∀ f ∈ s.lines[l].frames, f.captureTick ≠ s.tick) :
    s.startFrame l bytes = State.frameOpened l (s.endFrame l bytes true) := by
  refine (if_pos ?_).trans rfl
  rw [run, (Line.receiving_iff _).2 receives, List.all_eq_true.2 fun f hf => bne_iff_ne.2 (first f hf)]
  rfl

theorem State.startFrame_again {f : Frame} (hf : f ∈ s.lines[l].frames) (now : f.captureTick = s.tick) :
    s.startFrame l bytes = s := by
  refine if_neg ?_
  rw [Bool.and_eq_true, List.all_eq_true]
  exact fun h => bne_iff_ne.1 (h.2 f hf) now

theorem State.startFrame_idle (rest : s.lines[l].state = .disabled ∨ s.lines[l].state = .dark) :
    s.startFrame l bytes = s :=
  if_neg (by rw [Line.not_receiving rest, Bool.and_false, Bool.false_and]; exact Bool.false_ne_true)

end

/-- Settles O39: `State.startFrame` ends an open frame by `State.endFrame_openLast`. -/
theorem frameStartOpensAFrame : Obligations.FrameStartOpensAFrame := by
  intro l bytes s run
  refine ⟨fun receives noOpen first => ?_, fun before f last fits first => ?_, fun f hf now => ?_, fun rest => ?_⟩ <;>
    refine congrArg Host.Outcome.next ?_
  · rw [State.startFrame_receiving run receives first, State.endFrame_idle noOpen]
  · rw [State.startFrame_receiving run last.1 first, State.endFrame_openLast last fits.le (verdictOf_early fits)]
  · exact State.startFrame_again hf now
  · exact State.startFrame_idle rest

/-! ## Stamps handed over (04 R80, R87) -/

section
variable {l : Fin 8} {s : State} {before after : List Frame} {f : Frame} {edge : Nat}

/-- The frames of a line after an edge was handed over with a reading and an offset. -/
theorem State.lineEdge_eq (r : Reading) (off : Nat) (coarse : Bool) :
    s.lineEdge l edge r off coarse = State.handOff l (s.putLine l { s.lines[l] with
      frames := s.lines[l].frames.map fun f => if f.edge = edge && f.stamp.isNone then
        { f with stamp := some (assembleStamp r off f.comp.toNat coarse) } else f }) := rfl

theorem map_stamp_other {fs : List Frame} (g : Frame → Frame) (other : ∀ b ∈ fs, b.edge ≠ edge) :
    fs.map (fun f => if f.edge = edge && f.stamp.isNone then g f else f) = fs :=
  (List.map_congr_left fun b hb => if_neg (by simp [other b hb])).trans (List.map_id' fs)

theorem map_stamp_one (g : Frame → Frame) (frames : s.lines[l].frames = before ++ f :: after) (own : f.edge = edge)
    (stamp : f.stamp = none) (others : ∀ b, b ∈ before ∨ b ∈ after → b.edge ≠ edge) :
    s.lines[l].frames.map (fun f => if f.edge = edge && f.stamp.isNone then g f else f) = before ++ g f :: after := by
  rw [frames, List.map_append, List.map_cons, map_stamp_other g fun b hb => others b (.inl hb),
    map_stamp_other g fun b hb => others b (.inr hb), own, stamp]
  simp

end

/-- Settles O40: ends by `State.endFrame_openLast`, stamps by `State.lineEdge_eq`, the parse by `parseFrame_eq`. -/
theorem frameEndsAreHandedOff : Obligations.FrameEndsAreHandedOff := by
  refine ⟨fun l bytes before f s run => ⟨fun how v last fits hv => ?_, fun last full => ?_, fun how idle => ?_, ?_, ?_⟩,
    parseFrame_eq, Parse.outcome_eq⟩
  · refine congrArg Host.Outcome.next ?_
    rw [State.frameEnds, if_pos (by rw [run, (Line.receiving_iff _).2 last.1]; rfl)]
    refine State.endFrame_openLast last fits.le ?_
    rw [hv, decide_eq_true fits, Bool.and_true, verdictOf]
    simp only [beq_iff_eq, crcGood]
  · refine congrArg Host.Outcome.next ?_
    rw [State.byteLimit, if_pos (by rw [run, (Line.receiving_iff _).2 last.1]; rfl)]
    refine State.endFrame_openLast last full.le ?_
    rw [Bool.false_and, verdictOf, if_neg Bool.false_ne_true, if_pos (by omega)]
  · have nothing (early : Bool) :
        (if (s.running && s.lines[l].receiving) = true then s.endFrame l bytes early else s) = s := by
      obtain noOpen | rest := idle
      · rw [State.endFrame_idle noOpen, ite_self]
      · exact if_neg (by rw [Line.not_receiving rest, Bool.and_false]; exact Bool.false_ne_true)
    exact ⟨congrArg Host.Outcome.next (nothing _), congrArg Host.Outcome.next (nothing _)⟩
  · rintro after c off coarse st t frames own stamp others rfl rfl
    have hand : s.handEdge (.line l) c off coarse = State.handOff l (s.putLine l { s.lines[l] with
        frames := before ++ { f with stamp := some (assembleStamp c.reading off f.comp.toNat coarse) } :: after }) := by
      rw [← map_stamp_one (fun f => { f with stamp := some (assembleStamp c.reading off f.comp.toNat coarse) }) frames own
        stamp fun b hb => (others b hb).1]
      rfl
    refine ⟨fun v ended => ?_, fun isOpen => ?_⟩
    · rw [hand, State.handOff_one (f := { f with stamp := some (assembleStamp c.reading off f.comp.toNat coarse) })
        rfl ended rfl fun b hb => (others b hb).2]
      rfl
    · rw [hand, State.handOff_waiting]
      · rfl
      · intro b hb
        obtain hb | hb := List.mem_append.1 hb
        · exact (others b (.inl hb)).2
        · obtain rfl | hb := List.mem_cons.1 hb
          · exact .inl isOpen
          · exact (others b (.inr hb)).2
  · intro c off coarse others
    change s.lineEdge l c.edge c.reading off coarse = s
    rw [State.lineEdge_eq, map_stamp_other _ fun b hb => (others b hb).1,
      State.handOff_waiting fun b hb => (others b hb).2]
    exact State.putLine_self

end Sys2Proof.Machine

/-! PROOF. The marker unit (07): raw edges, qualification, hand-overs. -/

namespace Sys2Proof.Machine

section
variable {m : Fin 4} {d : Direction} {s : State} {y : Marker}

/-- The state with marker input `m` replaced. -/
def State.putMarker (m : Fin 4) (y : Marker) (s : State) : State := { s with markers := s.markers.set m y }

theorem State.updMarker_eq (f : Marker → Marker) : s.updMarker m f = s.putMarker m (f s.markers[m]) := rfl

theorem State.putMarker_markers : (s.putMarker m y).markers[m] = y := by simp [State.putMarker]

theorem State.updMarker_putMarker (f : Marker → Marker) : (s.putMarker m y).updMarker m f = s.putMarker m (f y) := by
  rw [State.updMarker_eq, State.putMarker_markers, State.putMarker, State.putMarker, State.putMarker, Vector.set_set]

theorem State.putMarker_self (hy : s.markers[m] = y) : s.putMarker m y = s := by
  subst hy
  simp [State.putMarker]

/-- An accepted edge (07 R140, R141, R142; 08 R161). -/
theorem State.accept_putMarker (st : Stamp) : (s.putMarker m y).accept m d st = s.accepted m y d st := by
  have record : (s.putMarker m y).markerRecord m d st = { input := m, dir := d, stamp := st, count := y.count + 1 } := by
    rw [State.markerRecord, State.putMarker_markers]
  rw [State.accept, record, State.updMarker_putMarker]
  rfl

/-! ## Raw edges (07 R133, R135, R136, R137) -/

/-- What a raw edge makes of an input under an edge select other than OFF, the sampled level being taken. -/
def Marker.filtered (d : Direction) (edge tick : Nat) (u : Marker) : Marker :=
  if edgeLevel d = u.qualified then
    (if u.candidate.isSome then { u with candidate := none, glitches := satInc u.glitches } else u)
  else if u.candidate.isSome then u
  else if u.settings.width = 0 then
    { u with qualified := edgeLevel d
             waiting := u.waiting ++ if u.settings.select.names d then
               [{ dir := d, comp := u.settings.comp, edge := edge, stamp := none }] else [] }
  else
    { u with candidate := some { dir := d, captureTick := tick, qualTick := tick + u.settings.widthTicks
                                 selected := u.settings.select.names d, comp := u.settings.comp
                                 edge := edge, stamp := none } }

theorem MarkerSettings.widthTicks_zero (r : MarkerSettings) : r.widthTicks = 0 ↔ r.width = 0 := by
  rw [MarkerSettings.widthTicks]
  generalize r.width = w
  match w with
  | 0 | 1 | 2 | 3 => simp

/-- A raw edge is filtered, and presented where it is selected (07 R135, R136). -/
theorem State.filterEdge_putMarker : (s.putMarker m y).filterEdge m d =
    State.putMarker m (y.filtered d s.edgeSeq s.tick) (if y.settings.select.names d then s.present (.marker m) else s) := by
  have commute (z : Marker) : (if y.settings.select.names d then (s.putMarker m z).present (.marker m) else s.putMarker m z)
      = State.putMarker m z (if y.settings.select.names d then s.present (.marker m) else s) := by
    split <;> rfl
  rw [State.filterEdge, State.putMarker_markers, commute, Marker.filtered]
  by_cases level : edgeLevel d = y.qualified
  · rw [if_pos level, if_pos level]
    cases y.candidate with
    | none => rfl
    | some c => exact State.updMarker_putMarker _
  · rw [if_neg level, if_neg level]
    by_cases candidate : y.candidate.isSome = true
    · rw [if_pos candidate, if_pos candidate]
    · rw [if_neg candidate, if_neg candidate]
      by_cases width : y.settings.width = 0
      · rw [if_pos ((MarkerSettings.widthTicks_zero _).2 width), if_pos width]
        exact State.updMarker_putMarker _
      · rw [if_neg (mt (MarkerSettings.widthTicks_zero _).1 width), if_neg width]
        exact State.updMarker_putMarker _

theorem State.rawEdge_seen (run : s.running = true) (new : s.markers[m].level ≠ edgeLevel d)
    (first : s.markers[m].rawSeen < 2) (room : s.markers[m].waiting.length < 14) {u : Marker}
    (hu : u = { s.markers[m] with level := edgeLevel d, rawSeen := s.markers[m].rawSeen + 1 }) :
    s.rawEdge m d = if s.markers[m].settings.select = .off then s.putMarker m { u with qualified := edgeLevel d }
      else (s.putMarker m u).filterEdge m d := by
  refine (if_neg new).trans ((if_neg (by rw [run]; decide)).trans ((if_neg ?_).trans ?_))
  · exact not_or.2 ⟨Nat.not_le.2 first, Nat.not_le.2 room⟩
  · rw [State.updMarker_eq, ← hu]
    exact if_congr Iff.rfl (State.updMarker_putMarker _) rfl

theorem State.rawEdge_full (run : s.running = true) (full : 14 ≤ s.markers[m].waiting.length) : s.rawEdge m d = s := by
  refine (ite_eq_left_iff.2 fun _ => ?_)
  exact (if_neg (by rw [run]; decide)).trans (if_pos (.inr full))

/-- While the core is held or frozen only the sampled level follows (07 R144). -/
theorem State.rawEdge_held (held : s.running = false) :
    s.rawEdge m d = s.updMarker m fun y => { y with level := edgeLevel d } := by
  by_cases same : s.markers[m].level = edgeLevel d
  · refine (if_pos same).trans ?_
    rw [State.updMarker_eq, ← same]
    exact (State.putMarker_self rfl).symm
  · exact (if_neg same).trans (if_pos (by rw [held]; rfl))

theorem State.markerRaw_room (room : s.markers[m].waiting.length < 14) : s.markerRaw m d = s.rawEdge m d :=
  if_neg fun h => by
    rw [Bool.and_eq_true, decide_eq_true_eq] at h
    exact absurd h.2 (Nat.not_le.2 room)

theorem State.markerRaw_full (run : s.running = true) (new : s.markers[m].level ≠ edgeLevel d)
    (first : s.markers[m].rawSeen < 2) (full : 14 ≤ s.markers[m].waiting.length) :
    s.markerRaw m d = (s.dueEdges (.marker m)).rawEdge m d :=
  if_pos (by
    simp only [Bool.and_eq_true, bne_iff_ne, decide_eq_true_eq]
    exact ⟨⟨⟨run, new⟩, first⟩, full⟩)

theorem State.markerRaw_held (held : s.running = false) : s.markerRaw m d = s.rawEdge m d :=
  if_neg (by rw [held]; simp)

/-! ## Qualification (07 R136) -/

theorem State.qualify_none (none : s.markers[m].candidate = none) : s.qualify m = s := by
  rw [State.qualify, none]

theorem State.qualify_early {c : Candidate} (candidate : s.markers[m].candidate = some c) (early : s.tick < c.qualTick) :
    s.qualify m = s := by
  rw [State.qualify, candidate]
  refine if_neg ?_
  rw [Candidate.due, decide_eq_false (Nat.not_le.2 early), Bool.false_and, Bool.and_false]
  exact Bool.false_ne_true

theorem State.qualify_unselected {c : Candidate} (run : s.running = true) (candidate : s.markers[m].candidate = some c)
    (due : c.qualTick ≤ s.tick) (selected : c.selected = false) :
    s.qualify m = s.updMarker m fun y => { y with candidate := none, qualified := edgeLevel c.dir } := by
  rw [State.qualify, candidate]
  refine (if_pos (by rw [run, Candidate.due, selected]; simpa using due)).trans ?_
  rw [selected]

theorem State.qualify_selected {c : Candidate} {st : Stamp} (run : s.running = true)
    (candidate : s.markers[m].candidate = some c) (due : c.qualTick ≤ s.tick) (selected : c.selected = true)
    (stamp : c.stamp = some st) :
    s.qualify m = s.accepted m { s.markers[m] with candidate := none, qualified := edgeLevel c.dir } c.dir st := by
  rw [State.qualify, candidate]
  refine (if_pos (by rw [run, Candidate.due, selected, stamp]; simpa using due)).trans ?_
  rw [selected, stamp, State.updMarker_eq]
  exact State.accept_putMarker st

/-! ## Hand-overs (07 R137, R138, R139) -/

/-- What a hand-over gives to the candidate and the waiting entries of an input. -/
def Marker.stamped (edge : Nat) (stampOf : BitVec 16 → Stamp) (y : Marker) : Marker :=
  { y with
    candidate := y.candidate.map fun c =>
      if c.edge = edge && c.selected && c.stamp.isNone then { c with stamp := some (stampOf c.comp) } else c
    waiting := y.waiting.map fun w =>
      if w.edge = edge && w.stamp.isNone then { w with stamp := some (stampOf w.comp) } else w }

theorem State.markerEdge_eq (edge : Nat) (r : Reading) (off : Nat) (coarse : Bool) (hy : s.markers[m] = y) :
    s.markerEdge m edge r off coarse =
      (s.putMarker m (y.stamped edge fun comp => assembleStamp r off comp.toNat coarse)).acceptFront m := by
  subst hy
  rfl

theorem waiting_other {edge : Nat} {g : Waiting → Waiting} {ws : List Waiting} (other : ∀ w ∈ ws, w.edge ≠ edge) :
    ws.map (fun w => if w.edge = edge && w.stamp.isNone then g w else w) = ws :=
  (List.map_congr_left fun w hw => if_neg (by simp [other w hw])).trans (List.map_id' ws)

theorem candidate_other {edge : Nat} {g : Candidate → Candidate} {c : Option Candidate} (other : ∀ k ∈ c, k.edge ≠ edge) :
    c.map (fun k => if k.edge = edge && k.selected && k.stamp.isNone then g k else k) = c := by
  cases c with
  | none => rfl
  | some k => exact congrArg some (if_neg (by simp [other k rfl]))

theorem State.acceptFront_waits (waits : ∀ w ∈ y.waiting.head?, w.stamp = none) :
    (s.putMarker m y).acceptFront m = s.putMarker m y := by
  rw [State.acceptFront, State.putMarker_markers]
  cases h : y.waiting with
  | nil => rfl
  | cons w ws =>
    dsimp only
    rw [waits w (by rw [h]; rfl)]

theorem State.acceptFront_stamped {w : Waiting} {ws : List Waiting} {st : Stamp} (front : y.waiting = w :: ws)
    (stamp : w.stamp = some st) :
    (s.putMarker m y).acceptFront m = s.accepted m { y with waiting := ws } w.dir st := by
  rw [State.acceptFront, State.putMarker_markers, front]
  dsimp only
  rw [stamp]
  dsimp only
  rw [State.updMarker_putMarker]
  exact State.accept_putMarker st

theorem State.acceptFront_mon : (s.acceptFront m).mon = s.mon := by
  rw [State.acceptFront]
  cases s.markers[m].waiting with
  | nil => rfl
  | cons w ws =>
    dsimp only
    cases w.stamp <;> rfl

theorem State.handEdge_marker_mon (c : Capture) (off : Nat) (coarse : Bool) :
    (s.handEdge (.marker m) c off coarse).mon = s.mon := State.acceptFront_mon

theorem State.dueEdges_marker_mon : (s.dueEdges (.marker m)).mon = s.mon := by
  have coarse (u : State) : (u.handCoarse (.marker m)).mon = u.mon := by
    rw [State.handCoarse]
    cases (u.interp (.marker m)).coarse with
    | nil => rfl
    | cons c cs =>
      dsimp only
      split
      · exact State.handEdge_marker_mon ..
      · rfl
  have conv : (s.dueConversion (.marker m)).mon = s.mon := by
    rw [State.dueConversion]
    split
    · rw [State.endConversion]
      split
      · rfl
      · split
        · split <;> exact State.handEdge_marker_mon ..
        · rfl
    · rfl
  exact times_keeps (fun u => u.mon = s.mon) _ (fun u h => (coarse u).trans h) _ _ conv

end

theorem EdgeSelect.names_iff (sel : EdgeSelect) (d : Direction) :
    sel.names d = true ↔ sel = .both ∨ sel = .rising ∧ d = .rising ∨ sel = .falling ∧ d = .falling := by
  cases sel <;> cases d <;> decide

/-- Settles O47: raw edges by `State.filterEdge_putMarker`, acceptance by `State.accept_putMarker`, hand-overs by
`State.markerEdge_eq`. -/
theorem markerEdgesAreFiltered : Obligations.MarkerEdgesAreFiltered := by
  rintro m d y s run rfl
  refine ⟨?_, fun new first full u hu => ⟨fun room => ?_, fun still => ?_⟩, fun c candidate due => ⟨fun selected => ?_,
    fun st selected stamp => ?_⟩, fun idle => ?_, ?_, rfl, rfl, fun sel => sel.names_iff d, fun r held => ?_⟩
  · rintro new first room u y' rfl
    have raw := (State.markerRaw_room (d := d) room).trans (State.rawEdge_seen run new first room rfl)
    refine ⟨fun off => congrArg Host.Outcome.next (raw.trans (if_pos off)),
      fun select hy' => ⟨_, congrArg Host.Outcome.next (raw.trans (if_neg select)), ?_⟩⟩
    rw [State.filterEdge_putMarker]
    have same : Marker.filtered d s.edgeSeq s.tick
        { s.markers[m] with level := edgeLevel d, rawSeen := s.markers[m].rawSeen + 1 } = y' := by
      rw [hy']
      rfl
    rw [same]
    cases names : s.markers[m].settings.select.names d
    · exact ⟨rfl, fun _ => rfl, fun h => nomatch h⟩
    · exact ⟨rfl, fun h => (nomatch h), fun _ => rfl⟩
  · subst hu
    refine congrArg Host.Outcome.next ?_
    rw [State.markerRaw_full run new first full, State.markerRaw_room room]
  · subst hu
    refine congrArg Host.Outcome.next ?_
    rw [State.markerRaw_full run new first full]
    exact State.rawEdge_full (by rw [State.running, State.dueEdges_marker_mon]; exact run) still
  · exact congrArg Host.Outcome.next (State.qualify_unselected run candidate due selected)
  · exact congrArg Host.Outcome.next (State.qualify_selected run candidate due selected stamp)
  · refine congrArg Host.Outcome.next ?_
    obtain none | ⟨c, candidate, early⟩ := idle
    · exact State.qualify_none none
    · exact State.qualify_early candidate early
  · rintro c off coarse t stampOf rfl rfl
    have hand : s.handEdge (.marker m) c off coarse = _ := State.markerEdge_eq c.edge c.reading off coarse rfl
    rw [hand, Marker.stamped]
    refine ⟨fun k candidate own selected stamp others => ?_, fun foreign => ⟨fun w ws front own stamp others => ?_,
      fun before w after waiting behind own stamp others => ?_, fun others => ?_⟩⟩
    · rw [waiting_other fun w hw => (others w hw).1, candidate, State.acceptFront_waits]
      · rw [Option.map_some, own, selected, stamp]
        simp only [decide_true, Option.isNone_none, Bool.and_self, if_true]
        rfl
      · exact fun w hw => (others w (List.mem_of_mem_head? hw)).2
    · rw [candidate_other foreign, front, List.map_cons, waiting_other others, own, stamp]
      simp only [decide_true, Option.isNone_none, Bool.and_self, if_true]
      exact State.acceptFront_stamped (w := { w with edge := c.edge, stamp := some (assembleStamp c.reading off w.comp.toNat coarse) })
        rfl rfl
    · rw [candidate_other foreign, waiting, List.map_append, List.map_cons, waiting_other fun x hx => (others x (.inl hx)).1,
        waiting_other fun x hx => (others x (.inr hx)).1, own, stamp]
      simp only [decide_true, Option.isNone_none, Bool.and_self, if_true]
      obtain ⟨x, xs, rfl⟩ := List.exists_cons_of_ne_nil behind
      rw [State.acceptFront_waits]
      · rfl
      · rintro w' ⟨⟩
        exact (others x (.inl List.mem_cons_self)).2
    · rw [candidate_other foreign, waiting_other fun w hw => (others w hw).1, State.acceptFront_waits]
      · exact State.putMarker_self rfl
      · exact fun w hw => (others w (List.mem_of_mem_head? hw)).2
  · refine congrArg Host.Outcome.next ?_
    rw [State.markerRaw_held held, State.rawEdge_held held]

end Sys2Proof.Machine

/-! PROOF. The pairing window (06): runs of OPEN slots, the range an arrival marks, advances, expiries. -/

namespace Sys2Proof.Machine

/-! ## Runs of OPEN slots (06 R121, R124) -/

theorem Slot.isVacant_iff (x : Slot) : x.isVacant = true ↔ x = .vacant := by rw [Slot.isVacant, beq_iff_eq]

theorem Slot.isLost_iff (x : Slot) : x.isLost = true ↔ x = .lost := by rw [Slot.isLost, beq_iff_eq]

/-- What `vacantRuns` finds from place `i` on, after a run of `cur` places that ends before it. -/
theorem vacantRuns_spec (xs : List Slot) (i cur tail : Nat) (behind : cur ≤ i) :
    (∀ r ∈ vacantRuns xs i cur tail, 1 ≤ r.2 ∧ i - cur ≤ r.1 ∧ r.1 + r.2 ≤ i + xs.length + tail)
    ∧ (∀ j, i - cur ≤ j → j < i + xs.length + tail →
      ((j < i ∨ xs.getD (j - i) .vacant = .vacant) ↔ ∃ r ∈ vacantRuns xs i cur tail, r.1 ≤ j ∧ j < r.1 + r.2))
    ∧ (vacantRuns xs i cur tail).Pairwise fun a b => a.1 + a.2 < b.1 := by
  induction xs generalizing i cur with
  | nil =>
    rw [vacantRuns]
    by_cases empty : cur + tail = 0
    · rw [if_pos empty]
      refine ⟨fun r hr => absurd hr List.not_mem_nil, fun j low high => ?_, List.Pairwise.nil⟩
      simp only [List.length_nil] at high
      omega
    · rw [if_neg empty]
      refine ⟨fun r hr => ?_, fun j low high => ?_, List.pairwise_singleton ..⟩
      · rw [List.mem_singleton.1 hr]
        simp only [List.length_nil]
        omega
      · simp only [List.length_nil] at high
        refine ⟨fun _ => ⟨_, List.mem_singleton_self _, low, ?_⟩, fun _ => .inr rfl⟩
        dsimp only
        omega
  | cons x xs ih =>
    have here : ∀ j, j - i = 0 → (x :: xs).getD (j - i) .vacant = x := fun j h => by rw [h, List.getD_cons_zero]
    have beyond : ∀ j, i < j → (x :: xs).getD (j - i) .vacant = xs.getD (j - (i + 1)) .vacant := fun j h => by
      rw [show j - i = (j - (i + 1)) + 1 by omega, List.getD_cons_succ]
    have length : i + (x :: xs).length + tail = i + 1 + xs.length + tail := by rw [List.length_cons]; omega
    rw [vacantRuns, length]
    by_cases vacant : x.isVacant = true
    · rw [if_pos vacant]
      obtain ⟨bounds, covers, apart⟩ := ih (i + 1) (cur + 1) (by omega)
      rw [show i + 1 - (cur + 1) = i - cur by omega] at bounds covers
      refine ⟨bounds, fun j low high => (Iff.trans ?_ (covers j low high)), apart⟩
      obtain before | same | after := Nat.lt_trichotomy j i
      · exact ⟨fun _ => .inl (by omega), fun _ => .inl before⟩
      · exact ⟨fun _ => .inl (by omega), fun _ => .inr (by rw [here j (by omega), ← Slot.isVacant_iff]; exact vacant)⟩
      · rw [beyond j after]
        exact ⟨fun h => .inr (h.resolve_left (by omega)), fun h => .inr (h.resolve_left (by omega))⟩
    · rw [if_neg vacant]
      obtain ⟨bounds, covers, apart⟩ := ih (i + 1) 0 (by omega)
      rw [Nat.sub_zero] at bounds covers
      have notHere : ¬(i < i ∨ (x :: xs).getD (i - i) .vacant = .vacant) := by
        rw [here i (by omega), ← Slot.isVacant_iff]
        exact fun h => vacant (h.resolve_left (by omega))
      by_cases fresh : cur = 0
      · rw [if_pos fresh, fresh, Nat.sub_zero]
        refine ⟨fun r hr => ?_, fun j low high => ?_, apart⟩
        · have := bounds r hr
          omega
        · obtain rfl | after := Nat.eq_or_lt_of_le low
          · refine ⟨fun h => absurd h notHere, fun ⟨r, hr, lo, _⟩ => ?_⟩
            have := bounds r hr
            omega
          · rw [beyond j after, ← covers j after high]
            exact ⟨fun h => .inr (h.resolve_left (by omega)), fun h => .inr (h.resolve_left (by omega))⟩
      · rw [if_neg fresh]
        refine ⟨fun r hr => ?_, fun j low high => ?_, List.pairwise_cons.2 ⟨fun r hr => ?_, apart⟩⟩
        · obtain rfl | hr := List.mem_cons.1 hr
          · dsimp only
            omega
          · have := bounds r hr
            omega
        · rw [List.exists_mem_cons_iff]
          dsimp only
          obtain before | same | after := Nat.lt_trichotomy j i
          · exact ⟨fun _ => .inl (by omega), fun _ => .inl before⟩
          · rw [same]
            refine ⟨fun h => absurd h notHere, fun h => ?_⟩
            obtain h | ⟨r, hr, lo, _⟩ := h
            · omega
            · have := bounds r hr
              omega
          · rw [beyond j after, ← covers j after high]
            refine ⟨fun h => .inr (.inr (h.resolve_left (by omega))), fun h => .inr ?_⟩
            obtain h | h := h
            · omega
            · exact h.resolve_left (by omega)
        · have := bounds r hr
          dsimp only
          omega

/-- The runs of OPEN slots and of so many sequences beyond them. -/
theorem vacantRuns_runsOf (xs : List Slot) (tail : Nat) :
    RunsOf (fun j => xs.getD j .vacant = .vacant) (xs.length + tail) (vacantRuns xs 0 0 tail) := by
  obtain ⟨bounds, covers, apart⟩ := vacantRuns_spec xs 0 0 tail (Nat.le_refl 0)
  rw [Nat.zero_add] at bounds covers
  refine ⟨fun r hr => ⟨(bounds r hr).1, (bounds r hr).2.2⟩, fun j hj => ?_, apart⟩
  rw [← covers j (Nat.zero_le j) hj, Nat.sub_zero]
  exact ⟨.inr, fun h => h.resolve_left (Nat.not_lt_zero j)⟩

theorem RunsOf.congr {P Q : Nat → Prop} {n : Nat} {rs : List (Nat × Nat)} (runs : RunsOf P n rs)
    (same : ∀ j, j < n → (Q j ↔ P j)) : RunsOf Q n rs :=
  ⟨runs.1, fun j hj => (same j hj).trans (runs.2.1 j hj), runs.2.2⟩

theorem getD_take {xs : List Slot} {n j : Nat} (h : j < n) : (xs.take n).getD j .vacant = xs.getD j .vacant := by
  rw [List.getD_eq_getElem?_getD, List.getD_eq_getElem?_getD, List.getElem?_take_of_lt h]

/-- The runs of OPEN slots below a place of the window. -/
theorem vacantRuns_below {xs : List Slot} {n : Nat} (inside : n ≤ xs.length) :
    RunsOf (fun j => xs.getD j .vacant = .vacant) n (vacantRuns (xs.take n) 0 0 0) := by
  have runs := vacantRuns_runsOf (xs.take n) 0
  rw [Nat.add_zero, List.length_take, Nat.min_eq_left inside] at runs
  exact RunsOf.congr runs fun j hj => by rw [getD_take hj]

/-- The sequences declared missing by an advance (06 R120, R121). -/
theorem PairWindow.departing_runsOf {w : PairWindow} (len : w.slots.length = 64) (n : Nat) :
    RunsOf (fun j => w.slots.getD j .vacant = .vacant) n (w.departing n) := by
  have runs := vacantRuns_runsOf (w.slots.take n) (n - 64)
  rw [List.length_take, len, show min n 64 + (n - 64) = n by omega] at runs
  exact RunsOf.congr runs fun j hj => by rw [getD_take hj]

/-! ## Holes (06 R110) -/

theorem PairWindow.hasHole_iff {w : PairWindow} (inside : w.top ≤ w.slots.length) :
    w.hasHole = true ↔ ∃ j, j < w.top ∧ w.slots.getD j .vacant = .vacant := by
  rw [PairWindow.hasHole, List.any_eq_true]
  constructor
  · rintro ⟨x, hx, vacant⟩
    obtain ⟨j, hj, rfl⟩ := List.mem_iff_getElem.1 hx
    have below : j < w.top := by rw [List.length_take] at hj; omega
    refine ⟨j, below, ?_⟩
    rw [← getD_take below, List.getD_eq_getElem _ _ hj]
    exact (Slot.isVacant_iff _).1 vacant
  · rintro ⟨j, below, vacant⟩
    have hj : j < (w.slots.take w.top).length := by rw [List.length_take]; omega
    rw [← getD_take below, List.getD_eq_getElem _ _ hj] at vacant
    exact ⟨_, List.getElem_mem hj, (Slot.isVacant_iff _).2 vacant⟩

theorem PairWindow.top_eq {w : PairWindow} {b h : BitVec 32} (base : w.base = some b) (highest : w.highest = some h) :
    w.top = (h - b).toNat := by
  rw [PairWindow.top, base, highest]
  rfl

/-! ## The range of an arrival (06 R114, R115) -/

theorem markRange_getD {line : Fin 8} {st : Stamp} {d c : Nat} {first : Slot} {slots : List Slot} (hc : 1 ≤ c)
    (fits : d + c ≤ slots.length) (j : Nat) :
    (markRange line st d c first slots).getD j .vacant =
      if j = d then first
      else if d < j ∧ j < d + c then markLater line st (slots.getD j .vacant) else slots.getD j .vacant := by
  have lower : (slots.take d).length = d := by rw [List.length_take]; omega
  have later : (((slots.drop (d + 1)).take (c - 1)).map (markLater line st)).length = c - 1 := by
    rw [List.length_map, List.length_take, List.length_drop]
    omega
  rw [markRange, List.append_assoc]
  simp only [List.getD_eq_getElem?_getD]
  obtain before | same | after := Nat.lt_trichotomy j d
  · rw [if_neg (by omega), if_neg (by omega), List.getElem?_append_left (by omega), List.getElem?_take_of_lt before]
  · rw [if_pos same, List.getElem?_append_right (by omega), same, lower, Nat.sub_self]
    rfl
  · rw [if_neg (by omega), List.getElem?_append_right (by omega), lower, List.cons_append,
      show j - d = (j - d - 1) + 1 by omega, List.getElem?_cons_succ]
    by_cases inRange : j < d + c
    · rw [if_pos ⟨after, inRange⟩, List.getElem?_append_left (by omega), List.getElem?_map,
        List.getElem?_take_of_lt (by omega), List.getElem?_drop, show d + 1 + (j - d - 1) = j by omega,
        List.getElem?_eq_getElem (by omega)]
      rfl
    · rw [if_neg (by omega), List.getElem?_append_right (by omega), later, List.getElem?_drop,
        show d + c + (j - d - 1 - (c - 1)) = j by omega]

theorem range_countP {slots : List Slot} {d c : Nat} (fits : d + c ≤ slots.length) (p : Slot → Bool) :
    ((slots.drop d).take c).countP p = (List.range c).countP fun j => p (slots.getD (d + j) .vacant) := by
  have listed : (slots.drop d).take c = (List.range c).map fun j => slots.getD (d + j) .vacant := by
    refine List.ext_getElem ?_ fun j h1 h2 => ?_
    · rw [List.length_take, List.length_drop, List.length_map, List.length_range]
      omega
    · rw [List.length_map, List.length_range] at h2
      rw [List.getElem_take, List.getElem_drop, List.getElem_map, List.getElem_range, List.getD_eq_getElem _ _ (by omega)]
  rw [listed, List.countP_map]
  rfl

theorem vacant_countP {slots : List Slot} {d c : Nat} (fits : d + c ≤ slots.length) :
    ((slots.drop d).take c).countP Slot.isVacant
      = (List.range c).countP fun j => decide (slots.getD (d + j) .vacant = .vacant) := by
  rw [range_countP fits]
  exact List.countP_congr fun j _ => by rw [Slot.isVacant_iff, decide_eq_true_eq]

theorem lost_countP {slots : List Slot} {d c : Nat} (fits : d + c ≤ slots.length) :
    ((slots.drop d).take c).countP Slot.isLost
      = (List.range c).countP fun j => decide (slots.getD (d + j) .vacant = .lost) := by
  rw [range_countP fits]
  exact List.countP_congr fun j _ => by rw [Slot.isLost_iff, decide_eq_true_eq]

theorem arrivalRecord_marked (i : Nat) (a : Arrival) (x : BitVec 32) (count : Option Nat) (m : Mark) (marks : Nat × Nat) :
    { arrivalRecord i a m.cls (some x) count with
      lag := m.lag, marks := some marks, overtook := m.overtook, acrossEpoch := m.acrossEpoch }
      = markedRecord i a x count m marks false := by
  rw [arrivalRecord, rangeIsCut_eq]
  rfl

section
variable {tick i : Nat} {a : Arrival} {x b : BitVec 32} {count : Option Nat} {e : Entry} {c d : Nat} {m : Mark} {force : Bool}

/-- An arrival that is placed: its range is marked, its record tells the marks, the deadline follows the holes
(06 R111, R114, R115, R122). -/
theorem Entry.place_spec (hc : c = rangeCount count) (len : e.win.slots.length = 64) (fits : d + c ≤ 64)
    (hm : m = classify a.line a.stamp (e.win.slots.getD d .vacant)) {e' : Entry} {rs : List Record}
    (placed : e.place tick i a x count d force = (e', rs)) :
    e' = { e with
      win := { base := e.win.base, slots := e'.win.slots
               highest := if force || e.win.highest.isNone || e.win.top < d + c - 1 then some (x + BitVec.ofNat 32 (c - 1))
                 else e.win.highest
               deadline := deadlineAfter e.win.deadline (e'.win.hasHole = true) a.stamp e.gapUs
               armedAt := if e'.win.hasHole then (if e.win.deadline.isSome then e.win.armedAt else some tick) else none
               stale := 0 }
      cnt := e.cnt.classified m (e.isA a.line) }
    ∧ e'.win.slots.length = 64
    ∧ MarksRange a d c m.slot (fun j => e.win.slots.getD j .vacant) (fun j => e'.win.slots.getD j .vacant)
    ∧ rs = [.arrival (markedRecord i a x count m
        ((List.range c).countP (fun j => decide (e.win.slots.getD (d + j) .vacant = .vacant)),
         (List.range c).countP fun j => decide (e.win.slots.getD (d + j) .vacant = .lost)) false)] := by
  subst hc hm
  obtain ⟨one, _⟩ := rangeCount_bounds count
  rw [Entry.place, Prod.mk.injEq] at placed
  obtain ⟨rfl, rfl⟩ := placed
  refine ⟨rfl, ?_, fun j _ => markRange_getD one (by omega) j, ?_⟩
  · exact (markRange_length _ _ _ _ _ _ one (by omega)).trans len
  · rw [arrivalRecord_marked, vacant_countP (by omega), lost_countP (by omega)]

theorem Entry.takeSequenced_base (base : e.win.base = none) :
    e.takeSequenced tick i a x count = e.takeBase i a x count false := by
  rw [Entry.takeSequenced, base]

theorem Entry.takeSequenced_ahead (base : e.win.base = some b) (ahead : (x - b).toNat < 2 ^ 31) :
    e.takeSequenced tick i a x count = e.takeAhead tick i a b x count (x - b).toNat := by
  rw [Entry.takeSequenced, base]
  exact if_pos ahead

theorem Entry.takeSequenced_behind (base : e.win.base = some b) (behind : 2 ^ 31 ≤ (x - b).toNat) :
    e.takeSequenced tick i a x count = e.takeStale i a b x count := by
  rw [Entry.takeSequenced, base]
  exact if_neg (Nat.not_lt.2 behind)

/-- The last sequence of a range that lies in the window (06 R110, R112). -/
theorem offset_last {b x : BitVec 32} {c d : Nat} (hd : d = (x - b).toNat) (one : 1 ≤ c) (fits : d + c ≤ 2 ^ 32) :
    (x + BitVec.ofNat 32 (c - 1) - b).toNat = d + c - 1 := by
  have move : x + BitVec.ofNat 32 (c - 1) - b = (x - b) + BitVec.ofNat 32 (c - 1) := by
    rw [BitVec.sub_eq_add_neg, BitVec.sub_eq_add_neg, BitVec.add_assoc, BitVec.add_assoc,
      BitVec.add_comm (BitVec.ofNat 32 (c - 1))]
  rw [move, BitVec.toNat_add, ← hd, BitVec.toNat_ofNat]
  omega

end

/-- Settles O43: with no base `Entry.takeBase`, in the window `Entry.place_spec`, behind it `Entry.takeStale`. -/
theorem sequencedArrivalsMarkTheirRange : Obligations.SequencedArrivalsMarkTheirRange := by
  refine ⟨fun n => ⟨rfl, rfl⟩, ?_⟩
  rintro tick i a x count e e' rs c fresh rfl taken hfresh
  obtain ⟨one, most⟩ := rangeCount_bounds count
  have based : fresh = baseWindow a.line a.stamp x (rangeCount count) := hfresh
  have first (rebased : Bool) (k : Entry) : k.takeBase i a x count rebased =
      ({ k with win := fresh, cnt := k.cnt.classified (.plain .leader .vacant) (k.isA a.line) },
        [.arrival (markedRecord i a x count (.plain .leader .vacant) (rangeCount count, 0) rebased)]) := by
    rw [Entry.takeBase, based, arrivalRecord, rangeIsCut_eq]
    rfl
  refine ⟨fun none => ?_, ?_, fun b base behind more => ?_, fun b base behind last => ?_⟩
  · rw [Entry.takeSequenced_base none, first, Prod.mk.injEq] at taken
    obtain ⟨rfl, rfl⟩ := taken
    exact ⟨rfl, rfl⟩
  · rintro b d m f g hole ⟨len, -, -, highestInside, -, -⟩ base rfl fits rfl rfl rfl hole_iff
    obtain ⟨known, inside⟩ := highestInside (by rw [base]; rfl)
    obtain ⟨h, highest⟩ := Option.isSome_iff_exists.1 known
    rw [Entry.takeSequenced_ahead base (by omega), Entry.takeAhead, if_pos fits] at taken
    obtain ⟨whole, len', marks, record⟩ := Entry.place_spec rfl len fits rfl taken
    rw [highest, Option.isNone_some, Bool.false_or, Bool.false_or] at whole
    simp only [decide_eq_true_eq] at whole
    have highest' : e'.win.highest = if e.win.top < (x - b).toNat + rangeCount count - 1 then
        some (x + BitVec.ofNat 32 (rangeCount count - 1)) else e.win.highest := by
      rw [highest]
      exact (congrArg (fun k : Entry => k.win.highest) whole :)
    have base' : e'.win.base = some b := (congrArg (fun k : Entry => k.win.base) whole :).trans base
    have top : e'.win.top = max e.win.top ((x - b).toNat + rangeCount count - 1) := by
      by_cases higher : e.win.top < (x - b).toNat + rangeCount count - 1
      · rw [if_pos higher] at highest'
        rw [PairWindow.top_eq base' highest', offset_last rfl one (by omega)]
        omega
      · rw [if_neg higher, highest] at highest'
        rw [PairWindow.top_eq base' highest', ← PairWindow.top_eq base highest]
        omega
    have holes : e'.win.hasHole = hole := by
      rw [Bool.eq_iff_iff, hole_iff, PairWindow.hasHole_iff (by omega)]
    refine ⟨?_, len', marks, top, highest', record⟩
    rw [holes, base] at whole
    rw [highest', highest]
    exact whole
  · rw [Entry.takeSequenced_behind base behind, Entry.takeStale, if_pos more, Prod.mk.injEq] at taken
    obtain ⟨rfl, rfl⟩ := taken
    refine ⟨rfl, ?_⟩
    rw [arrivalRecord, rangeIsCut_eq]
    rfl
  · rw [Entry.takeSequenced_behind base behind, Entry.takeStale, if_neg (by omega), first, Prod.mk.injEq] at taken
    obtain ⟨rfl, rfl⟩ := taken
    exact ⟨rfl, rfl⟩

/-- The entry whose window has moved up by `n` places, with what leaves it declared missing (06 R120, R121). -/
def Entry.advanced (n : Nat) (b : BitVec 32) (e : Entry) : Entry :=
  { e with
    win := e.win.advance n b
    cnt := { e.cnt with gaps := satAdd e.cnt.gaps ((e.win.departing n).map Prod.snd).sum } }

theorem Entry.takeAhead_beyond {tick i : Nat} {a : Arrival} {b x : BitVec 32} {count : Option Nat} {d n : Nat} {e : Entry}
    (beyond : 64 < d + rangeCount count) (hn : n = d + rangeCount count - 64) :
    e.takeAhead tick i a b x count d =
      (((e.advanced n b).place tick i a x count (64 - rangeCount count) true).1,
        gapRecords i .overrun b (b + BitVec.ofNat 32 n) a.stamp (e.win.departing n) ++
          ((e.advanced n b).place tick i a x count (64 - rangeCount count) true).2) := by
  subst hn
  exact if_neg (Nat.not_le.2 beyond)

theorem Entry.advanced_getD {e : Entry} (len : e.win.slots.length = 64) (n : Nat) (b : BitVec 32) (j : Nat) :
    (e.advanced n b).win.slots.getD j .vacant = e.win.slots.getD (j + n) .vacant := by
  change (e.win.slots.drop n ++ List.replicate (min n 64) Slot.vacant).getD j .vacant = _
  simp only [List.getD_eq_getElem?_getD]
  by_cases inside : j < (e.win.slots.drop n).length
  · rw [List.getElem?_append_left inside, List.getElem?_drop, Nat.add_comm n]
  · rw [List.getElem?_append_right (Nat.not_lt.1 inside), List.getElem?_replicate]
    rw [List.length_drop] at inside
    rw [List.getElem?_eq_none (l := e.win.slots) (i := j + n) (by omega)]
    split <;> rfl

/-- Where an arrival stands in the window that it advances. -/
theorem advanced_offset {d n c : Nat} (most : c ≤ 64) (ahead : d < 2 ^ 31) (beyond : 64 < d + c) (hn : n = d + c - 64) :
    (2 ^ 32 - n % 2 ^ 32 + d) % 2 ^ 32 = 64 - c := by
  omega

/-- Settles O44: `PairWindow.departing_runsOf` for what leaves, `Entry.place_spec` for the range. -/
theorem advancesDeclareOverruns : Obligations.AdvancesDeclareOverruns := by
  rintro tick i a x b count e e' rs c d n m f g hole hc taken ⟨len, -⟩ base hd ahead beyond hn rfl rfl hm hole_iff
  subst hc
  obtain ⟨one, most⟩ := rangeCount_bounds count
  rw [Entry.takeSequenced_ahead base (by omega), ← hd, Entry.takeAhead_beyond beyond hn] at taken
  rcases placed : (e.advanced n b).place tick i a x count (64 - rangeCount count) true with ⟨p, ps⟩
  rw [placed, Prod.mk.injEq] at taken
  obtain ⟨rfl, rfl⟩ := taken
  have moved := Entry.advanced_getD len n b
  have mark : m = classify a.line a.stamp ((e.advanced n b).win.slots.getD (64 - rangeCount count) .vacant) := by
    rw [moved]
    exact hm
  obtain ⟨whole, len', marks, record⟩ :=
    Entry.place_spec rfl (PairWindow.advance_length n b e.win len) (by omega) mark placed
  rw [Bool.true_or, Bool.true_or, if_pos rfl] at whole
  have base' : p.win.base = some (b + BitVec.ofNat 32 n) := (congrArg (fun k : Entry => k.win.base) whole :)
  have highest' : p.win.highest = some (x + BitVec.ofNat 32 (rangeCount count - 1)) :=
    (congrArg (fun k : Entry => k.win.highest) whole :)
  have offset : (x - (b + BitVec.ofNat 32 n)).toNat = 64 - rangeCount count := by
    have split : x - (b + BitVec.ofNat 32 n) = (x - b) - BitVec.ofNat 32 n := by
      rw [BitVec.sub_eq_add_neg, BitVec.sub_eq_add_neg, BitVec.sub_eq_add_neg, BitVec.neg_add, BitVec.sub_eq_add_neg,
        BitVec.add_assoc]
    rw [split, BitVec.toNat_sub, ← hd, BitVec.toNat_ofNat]
    exact advanced_offset most ahead beyond hn
  have top : p.win.top = 63 := by
    rw [PairWindow.top_eq base' highest', offset_last offset.symm one (by omega)]
    omega
  have holes : p.win.hasHole = hole := by
    rw [Bool.eq_iff_iff, hole_iff, PairWindow.hasHole_iff (by omega), top]
  refine ⟨e.win.departing n, PairWindow.departing_runsOf len n, ?_, len', top, ?_, ?_⟩
  · rw [holes] at whole
    exact whole
  · intro j hj
    dsimp only
    rw [← moved]
    exact marks j hj
  · rw [record]
    simp only [moved]
    rfl

end Sys2Proof.Machine

/-! PROOF. The engine (05): expiries, arrivals, the entry of a key. -/

namespace Sys2Proof.Machine

/-! ## Expiries (06 R122, R124) -/

theorem loseVacant_eq (x : Slot) : loseVacant x = if x = .vacant then .lost else x := by
  rw [loseVacant]
  simp only [Slot.isVacant_iff]

theorem Level.admits_gap (v : Level) (g : GapRecord) : v.admits (.gap g) = (v != .none) := by cases v <;> rfl

/-- The offers of GAP records: to the ports whose level is not NONE (05 R100). -/
theorem Entry.offers_gaps (e : Entry) (i : Nat) (cause : GapCause) (base after : BitVec 32) (st : Stamp)
    (runs : List (Nat × Nat)) :
    e.offers (gapRecords i cause base after st runs) = gapOffers e (gapsOf i cause base after st runs) := by
  have ports (g : GapRecord) : (portSet fun p => (e.levels[p]).admits (.gap g)) =
      #v[e.levels[0] != .none, e.levels[1] != .none, e.levels[2] != .none] := by
    rw [portSet, Level.admits_gap, Level.admits_gap, Level.admits_gap]
    rfl
  have levels : e.levels = #v[e.levels[0], e.levels[1], e.levels[2]] := by
    refine Vector.ext fun k hk => ?_
    match k, hk with
    | 0, _ | 1, _ | 2, _ => rfl
  have offered : (gapRecords i cause base after st runs).map (fun r =>
      ({ record := r, ports := portSet fun p => (e.levels[p]).admits r } : Offer)) =
      (gapsOf i cause base after st runs).map fun r =>
        { record := r, ports := #v[e.levels[0] != .none, e.levels[1] != .none, e.levels[2] != .none] } := by
    rw [gapRecords, gapsOf, List.map_map, List.map_map]
    exact List.map_congr_left fun r _ => congrArg (Offer.mk _) (ports _)
  rw [Entry.offers, offered, gapOffers]
  have anyone : (allPorts.any fun p =>
      (#v[e.levels[0] != .none, e.levels[1] != .none, e.levels[2] != .none] : Vector Bool 3)[p])
      = decide (e.levels ≠ #v[.none, .none, .none]) := by
    rw [levels]
    generalize e.levels[0] = u, e.levels[1] = v, e.levels[2] = w
    cases u <;> cases v <;> cases w <;> rfl
  by_cases nobody : e.levels = #v[.none, .none, .none]
  · rw [if_pos nobody, List.filter_eq_nil_iff]
    intro o ho
    obtain ⟨r, -, rfl⟩ := List.mem_map.1 ho
    rw [anyone, decide_eq_false (not_not.2 nobody)]
    exact Bool.false_ne_true
  · rw [if_neg nobody, List.filter_eq_self]
    intro o ho
    obtain ⟨r, -, rfl⟩ := List.mem_map.1 ho
    rw [anyone]
    exact decide_eq_true nobody

theorem expire_getD {slots : List Slot} {n : Nat} (inside : n ≤ slots.length) (j : Nat) :
    ((slots.take n).map loseVacant ++ slots.drop n).getD j .vacant =
      if j < n ∧ slots.getD j .vacant = .vacant then .lost else slots.getD j .vacant := by
  have lower : ((slots.take n).map loseVacant).length = n := by
    rw [List.length_map, List.length_take]
    omega
  simp only [List.getD_eq_getElem?_getD]
  by_cases below : j < n
  · rw [List.getElem?_append_left (by omega), List.getElem?_map, List.getElem?_take_of_lt below,
      List.getElem?_eq_getElem (by omega)]
    simp only [Option.map_some, Option.getD_some, loseVacant_eq, below, true_and]
  · rw [List.getElem?_append_right (by omega), lower, List.getElem?_drop, show n + (j - n) = j by omega,
      if_neg fun h => below h.1]

section
variable {s : State} {i : Nat} {e : Entry}

theorem State.gapExpiry_reached {d : Deadline} (run : s.running = true) (entry : tableGet i s.channels = some e)
    (deadline : e.win.deadline = some d) (due : d.reached s.reading = true) :
    s.gapExpiry i = s.commitEntry i (e.expire i s.now) := by
  rw [State.gapExpiry, entry]
  exact if_pos (by rw [run, deadline, Option.any_some, due]; rfl)

theorem State.gapExpiry_early {d : Deadline} (entry : tableGet i s.channels = some e)
    (deadline : e.win.deadline = some d) (early : d.reached s.reading = false) : s.gapExpiry i = s := by
  rw [State.gapExpiry, entry]
  exact if_neg (by rw [deadline, Option.any_some, early, Bool.and_false]; exact Bool.false_ne_true)

/-- A sweep of which one element alone does something. -/
theorem sweep_one {α σ : Type} (f : Nat × α → σ → σ) {i : Nat} {x : α} {xs : List (Nat × α)} (s : σ)
    (sorted : (xs.map Prod.fst).Pairwise (· < ·)) (mem : (i, x) ∈ xs) (others : ∀ q ∈ xs, q.1 ≠ i → ∀ t, f q t = t) :
    sweep f xs s = f (i, x) s := by
  have idle (ys : List (Nat × α)) (t : σ) (h : ∀ q ∈ ys, ∀ t, f q t = t) : sweep f ys t = t := by
    induction ys generalizing t with
    | nil => rfl
    | cons y ys ih =>
      rw [sweep, h y List.mem_cons_self]
      exact ih t fun q hq => h q (List.mem_cons_of_mem y hq)
  induction xs generalizing s with
  | nil => exact absurd mem List.not_mem_nil
  | cons y ys ih =>
    obtain ⟨above, sorted⟩ := List.pairwise_cons.1 sorted
    obtain rfl | mem := List.mem_cons.1 mem
    · exact idle ys _ fun q hq => others q (List.mem_cons_of_mem _ hq)
        (Nat.ne_of_gt (above q.1 (List.mem_map_of_mem hq)))
    · rw [sweep, others y List.mem_cons_self (Nat.ne_of_lt (above i (List.mem_map_of_mem mem)))]
      exact ih s sorted mem fun q hq => others q (List.mem_cons_of_mem y hq)

theorem sweep_idle {α σ : Type} (f : α → σ → σ) (xs : List α) (s : σ) (idle : ∀ x ∈ xs, ∀ t, f x t = t) :
    sweep f xs s = s := by
  induction xs generalizing s with
  | nil => rfl
  | cons x xs ih =>
    rw [sweep, idle x List.mem_cons_self]
    exact ih s fun q hq => idle q (List.mem_cons_of_mem x hq)

theorem Entry.isOverdue_iff {d : Deadline} (deadline : e.win.deadline = some d) :
    e.isOverdue s = true ↔ e.win.armedAt = some s.tick ∧ d.reached s.reading = true := by
  rw [Entry.isOverdue, deadline, Option.any_some, Bool.and_eq_true, beq_iff_eq]

/-- The expiry that is the next event of one entry (06 R122). -/
theorem State.overdue_one (sorted : (s.channels.map Prod.fst).Pairwise (· < ·)) (entry : tableGet i s.channels = some e)
    (due : e.isOverdue s = true) : (s.overdue fun k => k = i) = s.commitEntry i (e.expire i s.now) := by
  rw [State.overdue, sweep_one _ s sorted ((tableGet_iff i e sorted).1 entry)]
  · rw [decide_eq_true rfl, due, Entry.settled, if_pos due]
    rfl
  · intro q _ other t
    rw [decide_eq_false other]
    rfl

theorem State.overdue_none (sorted : (s.channels.map Prod.fst).Pairwise (· < ·)) (entry : tableGet i s.channels = some e)
    (idle : e.isOverdue s = false) : (s.overdue fun k => k = i) = s := by
  refine sweep_idle _ _ _ fun q hq t => if_neg ?_
  rw [Bool.and_eq_true, decide_eq_true_eq]
  rintro ⟨rfl, overdue⟩
  have same : tableGet q.1 s.channels = some q.2 := (tableGet_iff q.1 q.2 sorted).2 hq
  rw [entry, Option.some.injEq] at same
  rw [← same, idle] at overdue
  cases overdue

end

/-- Settles O46: `Entry.expire` declares the runs below the highest marked sequence. -/
theorem gapDeadlinesDeclareHoles : Obligations.GapDeadlinesDeclareHoles := by
  intro i e d s run entry deadline
  refine ⟨?_, fun early => congrArg Host.Outcome.next (State.gapExpiry_early entry deadline early), fun sorted =>
    ⟨fun armed due => ?_, fun idle => ?_⟩⟩
  · rintro due ⟨len, -, -, inside, -, -⟩ b base
    have top : e.win.top < 64 := (inside (by rw [base]; rfl)).2
    refine ⟨(e.expire i s.now).1, vacantRuns (e.win.slots.take e.win.top) 0 0 0, vacantRuns_below (by omega), ?_, rfl, ?_,
      fun j _ => expire_getD (by omega) j⟩
    · refine congrArg Host.Outcome.next ?_
      rw [State.gapExpiry_reached run entry deadline due, State.commitEntry]
      have records : (e.expire i s.now).2 = gapRecords i .timeout b b s.now
          (vacantRuns (e.win.slots.take e.win.top) 0 0 0) := by
        rw [Entry.expire, base]
        rfl
      have offers : (e.expire i s.now).1.offers (e.expire i s.now).2 = gapOffers e (gapsOf i .timeout b b s.now
          (vacantRuns (e.win.slots.take e.win.top) 0 0 0)) := by
        rw [← Entry.offers_gaps, ← records]
        rfl
      rw [offers]
      rfl
    · change ((e.win.slots.take e.win.top).map loseVacant ++ e.win.slots.drop e.win.top).length = 64
      rw [List.length_append, List.length_map, List.length_take, List.length_drop, len]
      omega
  · refine congrArg Host.Outcome.next ?_
    rw [State.gapExpiry_reached run entry deadline due,
      State.overdue_one sorted entry ((Entry.isOverdue_iff deadline).2 ⟨armed, due⟩)]
  · refine State.overdue_none sorted entry ?_
    rw [← Bool.not_eq_true, Entry.isOverdue_iff deadline]
    rintro ⟨armed, due⟩
    obtain h | h := idle
    · exact h armed
    · rw [h] at due
      cases due

/-! ## Arrivals (05 R93, R94, R95, R100) -/

/-- A take or an expiry changes of an entry its window and its counters. -/
def Entry.Keeps (e e' : Entry) : Prop := e' = { e with win := e'.win, cnt := e'.cnt }

section
variable {tick i n : Nat} {a : Arrival} {bs : List Byte} {x b : BitVec 32} {count : Option Nat} (e : Entry)

theorem Entry.takeSequenced_keeps : e.Keeps (e.takeSequenced tick i a x count).1 := by
  rw [Entry.takeSequenced]
  split
  · rfl
  · split
    · rw [Entry.takeAhead]
      dsimp only
      split <;> rfl
    · rw [Entry.takeStale]
      dsimp only
      split <;> rfl

theorem Entry.take_keeps : e.Keeps (e.take tick i a n bs).1 := by
  rw [Entry.take]
  split
  split
  · rfl
  · split
    · rfl
    · split
      · rfl
      · exact e.takeSequenced_keeps

theorem Entry.expire_keeps (now : Stamp) : e.Keeps (e.expire i now).1 := rfl

theorem Entry.settled_keeps (s : State) : e.Keeps (e.settled i s).1 := by
  rw [Entry.settled]
  split <;> rfl

end

theorem Entry.Keeps.trans {e f g : Entry} (ef : e.Keeps f) (fg : f.Keeps g) : e.Keeps g := by
  rw [Entry.Keeps] at ef fg ⊢
  rw [ef] at fg
  exact fg

theorem allPorts_any (f : Fin 3 → Bool) : allPorts.any f = (f 0 || f 1 || f 2) := by
  simp [allPorts, Bool.or_assoc]

/-- An arrival without an entry (05 R95). -/
theorem State.takeUnmapped_eq (a : Arrival) (key : Option Key) (cause : UnmappedCause) (s : State) {set : Vector Bool 3}
    (hset : set = #v[s.unmapped[0].getLsbD a.line, s.unmapped[1].getLsbD a.line, s.unmapped[2].getLsbD a.line]) :
    s.takeUnmapped a key cause =
      { s.updLine a.line fun x => { x with unmapped := satInc x.unmapped } with
        pool := { s.pool with fromEngine := s.pool.fromEngine ++
          if set = #v[false, false, false] then [] else
            [{ record := .unmapped { line := a.line, stamp := a.stamp, length := a.length, verdict := a.verdict
                                     key := key, cause := cause }
               ports := set }] } } := by
  have ports : (portSet fun p => s.unmapped[p].getLsbD a.line) = set := hset.symm
  have anyone : (allPorts.any fun p => set[p]) = decide (set ≠ #v[false, false, false]) := by
    rw [hset]
    generalize s.unmapped[0].getLsbD a.line = u, s.unmapped[1].getLsbD a.line = v, s.unmapped[2].getLsbD a.line = w
    cases u <;> cases v <;> cases w <;> rfl
  rw [State.takeUnmapped, ports]
  dsimp only
  rw [anyone]
  by_cases nobody : set = #v[false, false, false]
  · rw [decide_eq_false (not_not.2 nobody), if_neg Bool.false_ne_true, if_pos nobody, List.append_nil]
    rfl
  · rw [decide_eq_true nobody, if_pos rfl, if_neg nobody]
    rfl

theorem State.arrivalTake_cons {l : Fin 8} {a : Arrival} {rest : List Arrival} {s : State} (run : s.running = true)
    (arrivals : s.arrivals[l] = a :: rest) :
    s.arrivalTake l = ({ s with arrivals := s.arrivals.set l rest }).engineTake a := by
  refine (if_pos run).trans ?_
  rw [arrivals]

theorem State.engineTake_unkeyed {a : Arrival} {s : State} {c : UnkeyedCause} (parse : a.parse = .unkeyed c) :
    s.engineTake a = s.takeUnmapped a none (.unkeyed c) := by
  rw [State.engineTake, parse]

theorem State.engineTake_noChannel {a : Arrival} {s : State} {k : Key} {n : Nat} {bs : List Byte}
    (parse : a.parse = .keyed k n bs) (find : s.findKey (s.scopeOf a.line) k = none) :
    s.engineTake a = s.takeUnmapped a (some k) .noChannel := by
  rw [State.engineTake, parse]
  dsimp only
  rw [find]

theorem State.engineTake_entry {a : Arrival} {s : State} {k : Key} {n : Nat} {bs : List Byte} {i : Nat} {e : Entry}
    (parse : a.parse = .keyed k n bs) (find : s.findKey (s.scopeOf a.line) k = some (i, e)) :
    s.engineTake a = s.commitEntry i (((e.settled i s).1.take s.tick i a n bs).1,
      (e.settled i s).2 ++ ((e.settled i s).1.take s.tick i a n bs).2) := by
  rw [State.engineTake, parse]
  dsimp only
  rw [find]

theorem Entry.settled_eq (i : Nat) (s : State) (e : Entry) : e.settled i s =
    if e.win.armedAt = some s.tick ∧ e.win.deadline.any (fun d => d.reached s.reading) = true then e.expire i s.now
    else (e, []) := by
  rw [Entry.settled, Entry.isOverdue]
  simp only [Bool.and_eq_true, beq_iff_eq]

theorem Level.admits_leaders (r : Record) : Level.leaders.admits r = true ↔ ∀ x, r = .arrival x → x.cls = .leader
    ∨ x.cls = .late ∨ x.cls = .unsequenced ∨ x.cls = .follower ∧ x.overtook = true := by
  cases r with
  | arrival x =>
    simp only [Record.arrival.injEq, forall_eq']
    rw [Level.admits]
    cases x.cls <;> simp
  | gap g => exact ⟨fun _ _ h => (nomatch h), fun _ => rfl⟩
  | unmapped u => exact ⟨fun _ _ h => (nomatch h), fun _ => rfl⟩
  | marker m => exact ⟨fun _ _ h => (nomatch h), fun _ => rfl⟩

/-- Settles O41: `State.engineTake` by the parse and the entry of the key. -/
theorem arrivalsAreTaken : Obligations.ArrivalsAreTaken := by
  rintro l a rest s u run arrivals hu
  refine ⟨fun key cause set unmapped hset => ?_, ?_, fun v r => ⟨?_, ?_, ?_⟩, fun q hq => ?_, ?_⟩
  · refine congrArg Host.Outcome.next ?_
    have hset' : set = #v[u.unmapped[0].getLsbD a.line, u.unmapped[1].getLsbD a.line, u.unmapped[2].getLsbD a.line] := by
      rw [hu]
      exact hset
    rw [State.arrivalTake_cons run arrivals, ← hu]
    obtain ⟨c, parse, rfl, rfl⟩ | ⟨k, n, bs, parse, find, rfl, rfl⟩ := unmapped
    · rw [State.engineTake_unkeyed parse]
      exact State.takeUnmapped_eq a none (.unkeyed c) u hset'
    · have find' : u.findKey (u.scopeOf a.line) k = none := by rw [hu]; exact find
      rw [State.engineTake_noChannel parse find']
      exact State.takeUnmapped_eq a (some k) .noChannel u hset'
  · rintro k n bs i e e₀ e' rs₀ rs os parse find hdue htake hos
    rw [← Entry.settled_eq i s e] at hdue
    have kept : e.Keeps e' := by
      have first := Entry.settled_keeps (i := i) e s
      rw [← hdue] at first
      have second := Entry.take_keeps (tick := s.tick) (i := i) (a := a) (n := n) (bs := bs) e₀
      rw [htake] at second
      exact first.trans second
    refine ⟨?_, ?_⟩
    · refine congrArg Host.Outcome.next ?_
      have find' : u.findKey (u.scopeOf a.line) k = some (i, e) := by rw [hu]; exact find
      have due : e.settled i u = (e₀, rs₀) := by rw [hu]; exact hdue.symm
      have take : e₀.take u.tick i a n bs = (e', rs) := by rw [hu]; exact htake
      rw [State.arrivalTake_cons run arrivals, ← hu, State.engineTake_entry parse find', due]
      dsimp only
      rw [take, State.commitEntry, Entry.offers, hos]
      simp only [allPorts_any]
      rw [hu]
      rfl
    · rw [Entry.Keeps] at kept
      rw [kept]
      exact ⟨rfl, rfl, rfl, rfl, rfl, rfl⟩
  · rintro rfl; rfl
  · rintro rfl; rfl
  · rintro rfl; exact Level.admits_leaders r
  · obtain rfl : pairOf l = q := Fin.ext hq.symm
    constructor <;> intro mode <;> rw [State.scopeOf, mode]
  · rintro sc k holds rfl
    refine ⟨?_, fun q find => ⟨List.mem_of_find?_eq_some find, ?_⟩⟩
    · rw [State.findKey, List.find?_eq_none]
      simp only [Entry.hasKey_iff]
    · exact (Entry.hasKey_iff ..).1 (List.find?_some find :)

end Sys2Proof.Machine

/-! PROOF. RSTN, a stop of the clock, a dip of the supply (10 R185, R186, R189). -/

namespace Sys2Proof.Machine

/-! ## A stop and a dip (10 R185, R186) -/

/-- An RSTN that stands asserted goes back into its latch (10 R189; log entry 29). -/
theorem State.latchRstn_eq (s : State) :
    s.latchRstn = { s with mon := s.latching, rstnAsserted := false, rstnReleaseAt := none } := by
  rw [State.latchRstn, State.latching]
  cases s.rstnAsserted <;> rfl

theorem State.freezeCore_eq (s : State) :
    s.freezeCore = { s with
      mon := s.latching, rstnAsserted := false, rstnReleaseAt := none, secp := false, secpFell := none, calExpiry := none
      interps := (s.mapInterps Interp.freeze).interps, lines := (s.mapLines fun x => { x with frames := [] }).lines
      markers := (s.mapMarkers fun y => { y with rawSeen := 0, candidate := none, waiting := [] }).markers
      ports := (s.mapPorts fun _ q => { q with tx := none }).ports } := by
  rw [State.freezeCore, State.latchRstn_eq]
  dsimp only [State.mapInterps, State.mapLines, State.mapMarkers, State.mapPorts]

theorem State.loseCore_eq (s : State) :
    s.loseCore = { s with
      mon := { s.latching with invalid := true }, rstnAsserted := false, rstnReleaseAt := none, secp := false
      secpFell := none, calExpiry := none, time := { s.time with inc := increment s.disc.rate 0, excess := 0 }
      rolled := .none, disc := s.disc.clear
      channels := tableMap (fun _ e => { e with levels := Vector.replicate 3 .none, win := .empty, cnt := .zero }) s.channels
      unmapped := Vector.replicate 3 0, markerSubs := Vector.replicate 3 0
      markerPending := Vector.replicate 3 (Vector.replicate 4 0), arrivals := Vector.replicate 8 []
      pool := { s.pool with entries := [], fromEngine := [], fromMarkers := [] }
      interps := (s.mapInterps fun _ => .reset).interps, lines := (s.mapLines Line.dip).lines
      markers := (s.mapMarkers Marker.dip).markers, ports := (s.mapPorts fun _ q => q.dip).ports } := by
  rw [State.loseCore, State.latchRstn_eq]
  dsimp only [State.mapInterps, State.mapLines, State.mapMarkers, State.mapPorts, State.emptyWindows,
    State.emptyMarkerPorts, State.enterUnset]

theorem replicate_get {α : Type} {n : Nat} (x : α) (k : Fin n) : (Vector.replicate n x)[k] = x := by
  rw [Fin.getElem_fin, Vector.getElem_replicate]

/-- Settles O52: `State.freezeCore_eq` after the last tick is closed, `State.loseCore_eq`. -/
theorem aStopFreezesAndADipClears : Obligations.AStopFreezesAndADipClears := by
  intro s
  refine ⟨?_, fun phase => ?_⟩
  · intro run u hu
    refine ⟨u.freezeCore.updMon fun m =>
      { m with phase := .stopped, noTick := Config.stopCycles, good := 0, cause := .clockStop }, ?_, ?_⟩
    · rw [hu]
      exact congrArg Host.Outcome.next (if_pos run)
    clear hu
    rw [State.freezeCore_eq]
    exact ⟨rfl, fun i => State.mapInterps_get i Interp.freeze _, fun l => State.mapLines_get l (fun x => { x with frames := [] }) _,
      fun m => State.mapMarkers_get m (fun y => { y with rawSeen := 0, candidate := none, waiting := [] }) _,
      fun p => State.mapPorts_get p (fun _ q => { q with tx := none }) _⟩
  · have notDip : s.mon.phase ≠ .dip := by
      obtain h | h | h | ⟨h, -⟩ := phase <;> rw [h] <;> decide
    have later : s.mon.beforeFirstRelease = false := by
      rw [Monitor.beforeFirstRelease]
      obtain h | h | h | ⟨h, hc⟩ := phase <;> rw [h]
      · rfl
      · rfl
      · rfl
      · rw [Bool.or_eq_false_iff]
        exact ⟨rfl, by rw [Bool.and_eq_false_iff]; exact .inr (by rw [beq_eq_false_iff_ne]; exact hc)⟩
    refine ⟨_, congrArg Host.Outcome.next ((if_neg notDip).trans (if_neg (by rw [later]; exact Bool.false_ne_true))), ?_⟩
    rw [State.loseCore_eq]
    refine ⟨rfl, fun i => State.mapInterps_get i (fun _ => .reset) s, fun l => ⟨replicate_get [] l, ?_⟩, fun p => ?_,
      fun m => State.mapMarkers_get m Marker.dip s, fun p => State.mapPorts_get p (fun _ q => q.dip) s⟩
    · have line := State.mapLines_get l Line.dip s
      change (s.mapLines Line.dip).lines[l] = { s.lines[l] with
        state := (s.mapLines Line.dip).lines[l].state, lock := false, quiet := none, frames := [], frameCount := 0
        damaged := 0, unmapped := 0, coarseCount := 0 }
      rw [line]
      rfl
    · exact (replicate_get _ p).trans rfl

/-! ## Sweeps over the ports and the lines -/

/-- A sweep in which each step changes one place of a vector. -/
theorem sweep_get {σ β : Type} {n : Nat} (inv : σ → Prop) (view : σ → Vector β n) (F : Fin n → σ → σ) (g : Fin n → β → β)
    (keeps : ∀ l u, inv u → inv (F l u))
    (step : ∀ l k u, inv u → (view (F l u))[k] = if k = l then g l (view u)[l] else (view u)[k]) (ls : List (Fin n)) (s : σ)
    (start : inv s) (nodup : ls.Nodup) (k : Fin n) :
    (view (sweep F ls s))[k] = if k ∈ ls then g k (view s)[k] else (view s)[k] := by
  induction ls generalizing s with
  | nil => rfl
  | cons l ls ih =>
    obtain ⟨fresh, nodup⟩ := List.nodup_cons.1 nodup
    rw [sweep, ih (F l s) (keeps l s start) nodup, step l k s start]
    by_cases same : k = l
    · subst same
      rw [if_neg fresh, if_pos rfl, if_pos List.mem_cons_self]
    · rw [if_neg same]
      simp only [List.mem_cons, same, false_or]

theorem mem_allPorts (p : Fin 3) : p ∈ allPorts := by revert p; decide

theorem mem_allLines (l : Fin 8) : l ∈ allLines := by revert l; decide

theorem mem_allMarkers (m : Fin 4) : m ∈ allMarkers := by revert m; decide

theorem allPorts_nodup : allPorts.Nodup := by decide

theorem allLines_nodup : allLines.Nodup := by decide

/-! ## The assertion of RSTN (10 R189) -/

/-- A port as the assertion of RSTN leaves it, but for its silence timer and its lagging condition. -/
def Port.AsPinReset (old q : Port) : Prop :=
  q.state = .down ∧ q.cause = .none ∧ q.queue = [] ∧ q.counters = .zero ∧ q.lossTotal = 0 ∧ q.credits = 0 ∧ q.cmds = []
    ∧ q.tx = none ∧ q.attention = 0 ∧ q.quota = old.quota ∧ q.pacing = old.pacing ∧ q.permit = old.permit

theorem Port.AsPinReset.settle {old q : Port} (n : Nat) (h : old.AsPinReset q) : old.AsPinReset (q.settle n) := h

/-- A port that is DOWN takes no notice (08 R157, R161). -/
theorem Port.notify_down {q : Port} (b : NoticeBody) (down : q.state = .down) : q.notify b = q := by
  have out : q.inService = false := by rw [Port.inService, down]; rfl
  rw [Port.notify, out, if_neg Bool.false_ne_true, Port.attend, if_pos down]

/-- What ports that leave service leave: the ports, the pending sets, the entries of the pool. -/
def State.PortsLeft (s u : State) : Prop :=
  u = { s with ports := u.ports, markerPending := u.markerPending, pool := { s.pool with entries := u.pool.entries } }

theorem State.PortsLeft.trans {s u v : State} (su : s.PortsLeft u) (uv : u.PortsLeft v) : s.PortsLeft v := by
  rw [State.PortsLeft] at su uv ⊢
  rw [su] at uv
  exact uv

theorem State.resetPortByPin_left (p : Fin 3) (s : State) : s.PortsLeft (s.resetPortByPin p) := rfl

/-- A port at the assertion of RSTN. -/
def Port.pinReset (tick : Nat) (q : Port) : Port :=
  Port.settle tick { Port.settle tick { q.clearService with
      state := .down, cmds := [], orphans := q.orphans ++ q.cmds.filter QueuedCommand.handedOn, tx := none
      attention := 0, linkLost := false } with cause := .none, counters := .zero, lossTotal := 0 }

theorem Port.pinReset_asPinReset (tick : Nat) (q : Port) : q.AsPinReset (q.pinReset tick) :=
  ⟨rfl, rfl, rfl, rfl, rfl, rfl, rfl, rfl, rfl, rfl, rfl, rfl⟩

theorem State.resetPortByPin_get (p k : Fin 3) (s : State) :
    (s.resetPortByPin p).ports[k] = if k = p then s.ports[p].pinReset s.tick else s.ports[k] := by
  have downed (k : Fin 3) : (s.downPort p).ports[k] = if k = p then Port.settle s.tick { s.ports[p].clearService with
      state := .down, cmds := [], orphans := s.ports[p].orphans ++ s.ports[p].cmds.filter QueuedCommand.handedOn
      tx := none, attention := 0, linkLost := false } else s.ports[k] :=
    State.updPort_get p k (fun q => { q.clearService with
      state := .down, cmds := [], orphans := q.orphans ++ q.cmds.filter QueuedCommand.handedOn, tx := none
      attention := 0, linkLost := false }) (s.releaseIds s.ports[p].queue)
  rw [State.resetPortByPin, State.updPort_get, downed k, downed p, if_pos rfl]
  split <;> rfl

/-- What a change of the lines with its notices leaves: the lines, and ports that have taken notices. -/
def State.LinesTold (s u : State) : Prop := u = { s with lines := u.lines, ports := u.ports }

theorem State.LinesTold.trans {s u v : State} (su : s.LinesTold u) (uv : u.LinesTold v) : s.LinesTold v := by
  rw [State.LinesTold] at su uv ⊢
  rw [su] at uv
  exact uv

/-- A line with nothing in flight, in the state its enable gives (04 R92). -/
def Line.atRest (x : Line) : Line :=
  { x with state := if x.settings.enable then .dark else .disabled, lock := false, quiet := none, frames := [] }

/-- A line comes to rest: LINE is raised where its state changes (04 R77, R92). -/
theorem State.restartLine_same {l : Fin 8} {s : State} (same : s.lines[l].state = s.restState l) :
    s.restartLine l = s.putLine l s.lines[l].atRest := by
  rw [State.restartLine, State.updLine_eq]
  refine (State.setLineState_same (by rw [State.putLine_lines]; exact same)).trans ?_
  rw [Line.atRest]
  change _ = s.putLine l { s.lines[l] with state := s.restState l, lock := false, quiet := none, frames := [] }
  rw [← same]

theorem State.restartLine_new {l : Fin 8} {s : State} (new : s.lines[l].state ≠ s.restState l) :
    s.restartLine l = (s.putLine l s.lines[l].atRest).notifyAll
      (.line l s.lines[l].state (s.restState l) (s.lineStates.set l (s.restState l))) := State.setLineState_new new

theorem State.putLine_get {l k : Fin 8} {x : Line} {s : State} :
    (s.putLine l x).lines[k] = if k = l then x else s.lines[k] := State.updLine_get l k (fun _ => x) s

theorem State.restartLine_get (l k : Fin 8) (s : State) :
    (s.restartLine l).lines[k] = if k = l then s.lines[l].atRest else s.lines[k] := by
  by_cases same : s.lines[l].state = s.restState l
  · rw [State.restartLine_same same, State.putLine_get]
  · rw [State.restartLine_new same]
    exact State.putLine_get

theorem State.restartLine_told (l : Fin 8) (s : State) : s.LinesTold (s.restartLine l) := by
  by_cases same : s.lines[l].state = s.restState l
  · rw [State.restartLine_same same]
    rfl
  · rw [State.restartLine_new same]
    rfl

theorem State.restartLine_asPinReset {old : Port} (l : Fin 8) {p : Fin 3} {s : State} (h : old.AsPinReset s.ports[p]) :
    old.AsPinReset (s.restartLine l).ports[p] := by
  by_cases same : s.lines[l].state = s.restState l
  · rw [State.restartLine_same same]
    exact h
  · rw [State.restartLine_new same, State.notifyAll, State.mapPorts_get]
    change old.AsPinReset ((s.ports[p].notify _).settle s.tick)
    rw [Port.notify_down _ h.1]
    exact h.settle _

/-- A line at the assertion of RSTN (04 R91, R92). -/
def Line.pinReset (x : Line) : Line := { x.atRest with frameCount := 0, damaged := 0, unmapped := 0, coarseCount := 0 }

theorem State.resetLineByPin_get (l k : Fin 8) (s : State) :
    (s.resetLineByPin l).lines[k] = if k = l then s.lines[l].pinReset else s.lines[k] := by
  rw [State.resetLineByPin, State.updLine_get, State.restartLine_get, State.restartLine_get, if_pos rfl]
  by_cases h : k = l
  · rw [if_pos h, if_pos h]
    rfl
  · rw [if_neg h, if_neg h, if_neg h]

theorem State.resetLineByPin_told (l : Fin 8) (s : State) : s.LinesTold (s.resetLineByPin l) :=
  (State.restartLine_told l s).trans rfl

/-- The ports after each has been reset by the pin: beside them only the pending sets and the pool's entries change. -/
theorem State.sweep_resetPortByPin {s u : State} (hu : u = sweep State.resetPortByPin allPorts s) :
    s.PortsLeft u ∧ ∀ p : Fin 3, u.ports[p] = s.ports[p].pinReset s.tick := by
  constructor
  · rw [hu]
    exact sweep_keeps (fun u => s.PortsLeft u) State.resetPortByPin
      (fun p w hw => hw.trans (State.resetPortByPin_left p w)) allPorts s rfl
  · intro p
    rw [hu]
    refine (sweep_get (fun u => u.tick = s.tick) State.ports State.resetPortByPin (fun _ => Port.pinReset s.tick)
      (fun p u h => (show (u.resetPortByPin p).tick = s.tick from h)) (fun p k u h => ?_) allPorts s rfl allPorts_nodup p).trans (if_pos (mem_allPorts p))
    rw [State.resetPortByPin_get, h]

/-- The lines after each has been reset by the pin: beside them only notices change. -/
theorem State.sweep_resetLineByPin {s u : State} (hu : u = sweep State.resetLineByPin allLines s) :
    s.LinesTold u ∧ (∀ l : Fin 8, u.lines[l] = s.lines[l].pinReset)
    ∧ ∀ (p : Fin 3) (old : Port), old.AsPinReset s.ports[p] → old.AsPinReset u.ports[p] := by
  rw [hu]
  refine ⟨sweep_keeps (fun v => s.LinesTold v) State.resetLineByPin
    (fun l w hw => hw.trans (State.resetLineByPin_told l w)) allLines s rfl, fun l => ?_, fun p old => ?_⟩
  · exact (sweep_get (fun _ => True) State.lines State.resetLineByPin (fun _ => Line.pinReset) (fun _ _ h => h)
      (fun l k u _ => State.resetLineByPin_get l k u) allLines s trivial allLines_nodup l).trans (if_pos (mem_allLines l))
  · exact sweep_keeps (fun v => old.AsPinReset v.ports[p]) State.resetLineByPin
      (fun l w hw => State.restartLine_asPinReset l hw) allLines s

/-- What the assertion of RSTN leaves (10 R189): the ports' and the lines' values, and everything else. -/
theorem State.assertRstn_spec {s t : State} (ht : t = s.assertRstn) :
    t = { s with
      ports := t.ports, lines := t.lines, pool := { s.pool with entries := t.pool.entries, fromEngine := [], fromMarkers := [] }
      channels := tableMap (fun _ e => { e with levels := #v[.none, .none, .none], win := .empty, cnt := .zero }) s.channels
      unmapped := #v[0, 0, 0], markerSubs := #v[0, 0, 0], markerPending := Vector.replicate 3 (Vector.replicate 4 0)
      arrivals := Vector.replicate 8 [], rstnAsserted := true }
    ∧ (∀ p : Fin 3, s.ports[p].AsPinReset t.ports[p]) ∧ ∀ l : Fin 8, t.lines[l] = s.lines[l].pinReset := by
  obtain ⟨u, hu⟩ : ∃ u, u = sweep State.resetPortByPin allPorts s := ⟨_, rfl⟩
  obtain ⟨v, hv⟩ : ∃ v, v = sweep State.resetLineByPin allLines u := ⟨_, rfl⟩
  obtain ⟨frame, ports⟩ := State.sweep_resetPortByPin hu
  obtain ⟨told, lines, kept⟩ := State.sweep_resetLineByPin hv
  have whole : t = { v.emptyWindows.emptyMarkerPorts with
      arrivals := Vector.replicate 8 [], pool := { v.pool with fromEngine := [], fromMarkers := [] }
      rstnAsserted := true } := by
    rw [ht, State.assertRstn, ← hu, ← hv]
    rfl
  have tports : t.ports = v.ports := by rw [whole]; rfl
  have tlines : t.lines = v.lines := by rw [whole]; rfl
  have entries : t.pool.entries = u.pool.entries := by
    have told' : v.pool = u.pool := (congrArg State.pool told :)
    rw [whole, ← told']
  have ulines : u.lines = s.lines := (congrArg State.lines frame :)
  refine ⟨?_, fun p => ?_, fun l => ?_⟩
  · rw [tports, tlines, entries, whole, told, frame]
    rfl
  · rw [tports]
    refine kept p _ ?_
    rw [ports]
    exact Port.pinReset_asPinReset s.tick _
  · rw [tlines, lines, ulines]

/-- The release of RSTN (10 R189; 03 R72; 07 R144; 09 R177). -/
theorem State.releaseRstn_eq (s : State) : s.releaseRstn = { s with
    rstnAsserted := false, rstnReleaseAt := none
    ports := (s.mapPorts fun p q => { q with permit := s.straps.getLsbD p.val }).ports
    interps := (s.mapInterps fun x => { x with busy := 0, calibrations := 0 }).interps
    markers := (s.mapMarkers fun y => { y with glitches := 0 }).markers } := by
  rw [State.releaseRstn, State.samplePermits]
  dsimp only [State.mapInterps, State.mapMarkers, State.mapPorts]

/-- Settles O53: the assertion by `State.assertRstn_spec`, the release by `State.releaseRstn_eq`. -/
theorem rstnResetsPortsLinesAndWindows : Obligations.RstnResetsPortsLinesAndWindows := by
  intro straps s
  refine ⟨fun run high released => ?_, fun run high asserted => ?_, fun run low asserted idle => ?_, fun held high => ?_,
    fun held low => ?_⟩
  · obtain ⟨t, ht⟩ : ∃ t, t = State.assertRstn { s with rstnLow := true } := ⟨_, rfl⟩
    obtain ⟨whole, ports, lines⟩ := State.assertRstn_spec ht
    refine ⟨t, congrArg Host.Outcome.next ?_, ?_⟩
    · rw [ht, if_neg (by rw [high]; decide)]
      change (if (!s.running) = true then _ else if s.rstnAsserted = true then _ else _) = _
      rw [run, released]
      rfl
    · rw [whole]
      refine ⟨rfl, rfl, rfl, rfl, rfl, rfl, rfl, rfl, rfl, rfl, rfl, fun p => replicate_get _ p, fun l => replicate_get _ l,
        rfl, rfl, fun p => ?_, lines⟩
      obtain ⟨state, cause, queue, counters, lossTotal, credits, cmds, tx, attention, quota, pacing, permit⟩ := ports p
      exact ⟨state, cause, queue, counters, lossTotal, credits, cmds, tx, attention, quota, pacing, permit⟩
  · refine congrArg Host.Outcome.next ((if_neg (by rw [high]; decide)).trans ?_)
    change (if (!s.running) = true then _ else if s.rstnAsserted = true then _ else _) = _
    rw [run, asserted]
    rfl
  · refine ⟨State.releaseRstn { s with rstnLow := false, straps := straps },
      congrArg Host.Outcome.next ((if_pos low).trans ?_), ?_⟩
    · change (if (!s.running) = true then _ else if (s.rstnAsserted && s.rstnReleaseAt.isNone) = true then _ else _) = _
      rw [run, asserted, idle]
      rfl
    · rw [State.releaseRstn_eq]
      exact ⟨by rw [idle], fun p => State.mapPorts_get p (fun p q => { q with permit := straps.getLsbD p.val }) _,
        fun i => State.mapInterps_get i (fun x => { x with busy := 0, calibrations := 0 }) _,
        fun m => State.mapMarkers_get m (fun y => { y with glitches := 0 }) _⟩
  · refine congrArg Host.Outcome.next ((if_neg (by rw [high]; decide)).trans ?_)
    change (if (!s.running) = true then _ else _) = _
    rw [held]
    rfl
  · refine congrArg Host.Outcome.next ((if_pos low).trans ?_)
    change (if (!s.running) = true then _ else _) = _
    rw [held]
    rfl

end Sys2Proof.Machine

/-! PROOF. The release of the core (10 R188). -/

namespace Sys2Proof.Machine

/-! ## Notices and settling -/

theorem timer_twice (c : Prop) [Decidable c] (t : Option Nat) (a b : Nat) :
    (if c then some ((if c then some (t.getD a) else none).getD b) else none) = if c then some (t.getD a) else none := by
  by_cases h : c
  · rw [if_pos h, if_pos h]
    rfl
  · rw [if_neg h, if_neg h]

theorem and_twice (x y : Bool) : (x && y && y) = (x && y) := by rw [Bool.and_assoc, Bool.and_self]

/-- A port that is settled twice keeps the silence timer of the first, whatever it is told between (09 R170). -/
theorem Port.settle_keeps_first (m n : Nat) (q : Port) (notices : List Notice) (attention : BitVec 9) :
    ({ q.settle m with notices := notices, attention := attention } : Port).settle n =
      ({ q with notices := notices, attention := attention } : Port).settle m := by
  rw [Port.settle_eq, Port.settle_eq, Port.settle_eq]
  exact congrArg₂ (fun t l => ({ q with notices := notices, attention := attention, silenceTimer := t, lagging := l } : Port))
    (timer_twice ..) (and_twice ..)

theorem Port.settle_notify_settle (b : NoticeBody) (m n : Nat) (q : Port) :
    ((q.settle m).notify b).settle n = (q.notify b).settle m := by
  rw [Port.notify_eq, Port.notify_eq]
  exact Port.settle_keeps_first m n q _ _

theorem Port.settle_amend_settle (b : NoticeBody) (m n : Nat) (q : Port) :
    ((q.settle m).amend b).settle n = (q.amend b).settle m := by
  rw [Port.amend_eq, Port.amend_eq]
  exact Port.settle_keeps_first m n q _ _

/-! ## The lines at the release (04 R77, R92; log entry 33) -/

/-- A port that is told of the change of a line, those up to it having changed. -/
def State.lineTold (s : State) (q : Port) (l : Fin 8) : Port :=
  if s.lines[l].state = s.restState l then q
  else q.notify (.line l s.lines[l].state (s.restState l)
    (.ofFn fun k => if k ≤ l then s.restState k else s.lines[k].state))

theorem allLines_take_succ (n : Fin 8) : allLines.take (n.val + 1) = allLines.take n.val ++ [n] := by
  revert n
  decide

theorem restState_atRest {s u : State} {l : Fin 8} (same : u.lines[l] = s.lines[l]) : u.restState l = s.restState l := by
  rw [State.restState, same]

/-- The lines below the `n`-th have come to rest. -/
theorem State.sweep_restartLine (s : State) (n : Nat) (hn : n ≤ 8) :
    s.LinesTold (sweep State.restartLine (allLines.take n) s)
    ∧ (∀ k : Fin 8, (sweep State.restartLine (allLines.take n) s).lines[k] =
        if k.val < n then s.lines[k].atRest else s.lines[k])
    ∧ ∀ (p : Fin 3) (m : Nat) (q : Port), s.ports[p] = q.settle m →
      (sweep State.restartLine (allLines.take n) s).ports[p] = ((allLines.take n).foldl s.lineTold q).settle m := by
  induction n with
  | zero => exact ⟨rfl, fun k => (if_neg (Nat.not_lt_zero _)).symm, fun p m q h => h⟩
  | succ n ih =>
    obtain ⟨told, lines, ports⟩ := ih (by omega)
    obtain ⟨l, rfl⟩ : ∃ l : Fin 8, n = l.val := ⟨⟨n, by omega⟩, rfl⟩
    obtain ⟨u, hu⟩ : ∃ u, u = sweep State.restartLine (allLines.take l.val) s := ⟨_, rfl⟩
    rw [← hu] at told lines ports
    rw [allLines_take_succ, sweep_append, ← hu]
    change s.LinesTold (u.restartLine l) ∧ (∀ k : Fin 8, (u.restartLine l).lines[k] = _) ∧ _
    have own : u.lines[l] = s.lines[l] := by rw [lines, if_neg (Nat.lt_irrefl _)]
    refine ⟨told.trans (State.restartLine_told l u), fun k => ?_, fun p m q hq => ?_⟩
    · rw [State.restartLine_get, own, lines]
      by_cases same : k = l
      · rw [if_pos same, if_pos (by rw [same]; omega), same]
      · rw [if_neg same]
        have differ : k.val ≠ l.val := fun h => same (Fin.ext h)
        exact if_congr (by omega) rfl rfl
    · rw [List.foldl_append, List.foldl_cons, List.foldl_nil]
      change (u.restartLine l).ports[p] = _
      have rest : u.restState l = s.restState l := restState_atRest own
      have before := ports p m q hq
      rw [State.lineTold]
      by_cases same : s.lines[l].state = s.restState l
      · rw [if_pos same, State.restartLine_same (by rw [own, rest]; exact same)]
        exact before
      · rw [if_neg same, State.restartLine_new (by rw [own, rest]; exact same), State.notifyAll, State.mapPorts_get]
        have states : u.lineStates.set l (u.restState l) =
            .ofFn fun k => if k ≤ l then s.restState k else s.lines[k].state := by
          refine Vector.ext fun k hk => ?_
          rw [State.lineStates_eq, Vector.getElem_set, Vector.getElem_map, Vector.getElem_ofFn]
          have line := lines ⟨k, hk⟩
          rw [Fin.getElem_fin] at line
          rw [line]
          obtain below | same | above := Nat.lt_trichotomy k l.val
          · rw [if_neg (Nat.ne_of_gt below), if_pos below, if_pos (Fin.le_def.2 below.le)]
            rfl
          · rw [if_pos same.symm, if_pos (Fin.le_def.2 same.le), rest]
            exact congrArg s.restState (Fin.ext same.symm)
          · rw [if_neg (Nat.ne_of_lt above), if_neg (show ¬k < l.val from Nat.lt_asymm above),
              if_neg (show ¬(⟨k, hk⟩ : Fin 8) ≤ l from Nat.not_le.2 above)]
        change (Port.notify _ u.ports[p]).settle u.tick = _
        rw [states, own, rest, before, Port.settle_notify_settle]

/-! ## Notices that stay -/

/-- A port in service that has a notice pending. -/
def Port.Tells (q : Port) (b : NoticeBody) : Prop := q.inService = true ∧ ∃ n ∈ q.notices, n.body = b

theorem raiseInto_tells {b : NoticeBody} (plain : ∀ a : NoticeBody, a.merge b = b) (ns : List Notice) :
    ∃ n ∈ raiseInto b ns, n.body = b := by
  induction ns with
  | nil => exact ⟨_, List.mem_singleton_self _, rfl⟩
  | cons a ns ih =>
    rw [raiseInto]
    split
    · exact ⟨_, List.mem_cons_self, plain _⟩
    · obtain ⟨n, mem, body⟩ := ih
      exact ⟨n, List.mem_cons_of_mem _ mem, body⟩

theorem amendInto_other {b : NoticeBody} {n : Notice} (ns : List Notice) (h : n.body.kind ≠ b.kind) (mem : n ∈ ns) :
    n ∈ amendInto b ns := by
  induction ns with
  | nil => exact absurd mem List.not_mem_nil
  | cons a ns ih =>
    rw [amendInto]
    rcases List.mem_cons.1 mem with rfl | mem
    · rw [if_neg h]
      exact List.mem_cons_self
    · split
      · exact List.mem_cons_of_mem _ mem
      · exact List.mem_cons_of_mem _ (ih mem)

theorem Port.tells_notify {q : Port} {b : NoticeBody} (plain : ∀ a : NoticeBody, a.merge b = b)
    (h : q.inService = true) : (q.notify b).Tells b := by
  rw [Port.notify_eq]
  refine ⟨h, ?_⟩
  rw [if_pos h]
  exact raiseInto_tells plain q.notices

theorem Port.Tells.notify {q : Port} {b c : NoticeBody} (other : b.kind ≠ c.kind) (h : q.Tells b) : (q.notify c).Tells b := by
  obtain ⟨serves, n, mem, rfl⟩ := h
  rw [Port.notify_eq]
  refine ⟨serves, n, ?_, rfl⟩
  rw [if_pos serves]
  exact (raiseInto_other c n q.notices other).2 mem

theorem Port.Tells.amend {q : Port} {b c : NoticeBody} (other : b.kind ≠ c.kind) (h : q.Tells b) : (q.amend c).Tells b := by
  obtain ⟨serves, n, mem, rfl⟩ := h
  rw [Port.amend_eq]
  refine ⟨serves, n, ?_, rfl⟩
  rw [if_pos serves]
  exact amendInto_other q.notices other mem

theorem Port.notify_inService (q : Port) (b : NoticeBody) : (q.notify b).inService = q.inService := by
  rw [Port.notify_eq]
  rfl

theorem State.lineTold_inService (s : State) (q : Port) (l : Fin 8) : (s.lineTold q l).inService = q.inService := by
  rw [State.lineTold]
  split
  · rfl
  · exact q.notify_inService _

theorem State.foldl_lineTold_inService (s : State) (ls : List (Fin 8)) (q : Port) :
    (ls.foldl s.lineTold q).inService = q.inService := by
  induction ls generalizing q with
  | nil => rfl
  | cons l ls ih => exact (ih _).trans (s.lineTold_inService q l)

/-- A notice of another kind stays while the lines come to rest. -/
theorem State.foldl_lineTold_tells (s : State) (ls : List (Fin 8)) {q : Port} {b : NoticeBody} (other : noticeKind b ≠ 5)
    (h : q.Tells b) : (ls.foldl s.lineTold q).Tells b := by
  induction ls generalizing q with
  | nil => exact h
  | cons l ls ih =>
    refine ih ?_
    rw [State.lineTold]
    split
    · exact h
    · exact h.notify fun same => other (NoticeBody.kind_iff .. |>.1 same)

theorem State.foldl_lineTold_rest (s : State) (ls : List (Fin 8)) (q : Port)
    (rest : ∀ k ∈ ls, s.lines[k].state = s.restState k) : ls.foldl s.lineTold q = q := by
  induction ls with
  | nil => rfl
  | cons l ls ih =>
    rw [List.foldl_cons, State.lineTold, if_pos (rest l List.mem_cons_self)]
    exact ih fun k mem => rest k (List.mem_cons_of_mem _ mem)

theorem allLines_split (l : Fin 8) : allLines = allLines.take l ++ l :: allLines.drop (l + 1) := by revert l; decide

theorem mem_drop_allLines (l k : Fin 8) : k ∈ allLines.drop (l + 1) ↔ l < k := by revert l k; decide

/-- The last line that changes leaves the LINE with the states of all lines. -/
theorem State.lineTold_last (s : State) (q : Port) (l : Fin 8) (serves : q.inService = true)
    (new : s.lines[l].state ≠ s.restState l) (last : ∀ k : Fin 8, l < k → s.lines[k].state = s.restState k) :
    (allLines.foldl s.lineTold q).Tells (.line l s.lines[l].state (s.restState l) (.ofFn s.restState)) := by
  rw [allLines_split l, List.foldl_append, List.foldl_cons,
    s.foldl_lineTold_rest _ _ fun k mem => last k ((mem_drop_allLines l k).1 mem), State.lineTold, if_neg new]
  have states : (Vector.ofFn fun k => if k ≤ l then s.restState k else s.lines[k].state) = .ofFn s.restState := by
    refine congrArg _ (funext fun k => ?_)
    split
    · rfl
    · next h => exact last k (not_le.1 h)
  rw [states]
  exact Port.tells_notify (fun a => by cases a <;> rfl) ((s.foldl_lineTold_inService _ q).trans serves)

/-! ## The release -/

/-- The core at its first tick, before INVALID enters UNSET and the counter adds its increment. -/
def State.started (straps : BitVec 3) (s : State) : State :=
  { s with
    straps := straps, tick := s.tick + 1, secp := false, secpFell := none
    calExpiry := s.disc.settings.calTicks.map fun n => s.tick + 1 + n
    mon := { s.mon with phase := .run, noTick := 0, invalid := true }
    interps := (s.mapInterps Interp.release).interps, markers := (s.mapMarkers Marker.release).markers
    ports := if s.mon.cause = .powerOn then (s.mapPorts fun p q => { q with permit := straps.getLsbD p.val }).ports
      else s.ports }

/-- The counter before its first increment (01 R17, R23). -/
def State.held (s : State) : Timescale := { s.time with inc := increment s.disc.rate 0, excess := 0 }

/-- The core after its first tick and its notices, before its lines come to rest. -/
def State.released (straps : BitVec 3) (s : State) : State :=
  ((s.started straps).led s.held.addTick (s.rolled.next s.held.rolls) s.disc.clear
    [.invalid (some s.mon.cause)]).raiseQuality s.disc.state s.disc.suspect

theorem State.releaseCore_eq (straps : BitVec 3) (s : State) :
    s.releaseCore straps = (sweep State.restartLine allLines (s.released straps)).takeLatch := by
  have first : ∀ t : State, t = (if s.mon.cause = .powerOn then
      (({ s with straps := straps }).updMon fun m => { m with phase := .run, noTick := 0 }).samplePermits
      else ({ s with straps := straps }).updMon fun m => { m with phase := .run, noTick := 0 }) →
      t.firstTick = (s.started straps).led s.held.addTick (s.rolled.next s.held.rolls) s.disc.clear [] := by
    intro t ht
    rw [State.firstTick, State.started]
    dsimp only [State.mapInterps, State.mapMarkers, State.count, State.enterUnset, State.led, sweep, State.held]
    by_cases cold : s.mon.cause = .powerOn
    · rw [if_pos cold] at ht ⊢
      rw [ht]
      dsimp only [State.samplePermits, State.mapPorts, State.updMon]
    · rw [if_neg cold] at ht ⊢
      rw [ht]
      dsimp only [State.updMon]
  rw [State.released, ← List.nil_append [NoticeBody.invalid _], ← State.notifyAll_led, ← first _ rfl]
  rfl

/-- A port that is told of the release, up to the class (10 R188; 02 R52; log entry 7). -/
def State.classTold (s : State) (q : Port) : Port :=
  if s.disc.state = .unset ∧ s.disc.suspect = false then q.notify (.invalid (some s.mon.cause))
  else if s.disc.qualityAt.map Prod.fst = some (s.tick + 1) then
    (q.notify (.invalid (some s.mon.cause))).amend
      (.quality ((s.disc.qualityAt.map Prod.snd).getD s.disc.state) .unset false)
  else (q.notify (.invalid (some s.mon.cause))).notify (.quality s.disc.state .unset false)

theorem State.toldOfRelease_eq (s : State) (q : Port) :
    s.toldOfRelease q = allLines.foldl s.lineTold (s.classTold q) := rfl

theorem State.classTold_tells {s : State} {q : Port} (h : q.inService = true) :
    (s.classTold q).Tells (.invalid (some s.mon.cause)) := by
  have told : (q.notify (.invalid (some s.mon.cause))).Tells (.invalid (some s.mon.cause)) :=
    Port.tells_notify (fun a => by cases a <;> rfl) h
  rw [State.classTold]
  split
  · exact told
  split
  · exact told.amend fun same => absurd ((NoticeBody.kind_iff ..).1 same) (show ¬(2 = 1) by decide)
  · exact told.notify fun same => absurd ((NoticeBody.kind_iff ..).1 same) (show ¬(2 = 1) by decide)

theorem Port.Tells.settle {q : Port} {b : NoticeBody} (n : Nat) (h : q.Tells b) : (q.settle n).Tells b := h

theorem Port.permitted_inService (q : Port) (b : Bool) (h : q.inService = true) :
    ({ q with permit := b } : Port).inService = true := h

/-- A port in service is told why INVALID is set, and of the last line that changes (10 R188). -/
theorem State.toldOfRelease_invalid {s : State} {q : Port} (h : q.inService = true) :
    (s.toldOfRelease q).Tells (.invalid (some s.mon.cause)) :=
  s.foldl_lineTold_tells allLines (b := .invalid (some s.mon.cause)) (show ¬(2 = 5) by decide) (State.classTold_tells h)

theorem State.toldOfRelease_line {s : State} {q : Port} {l : Fin 8} (h : q.inService = true)
    (new : s.lines[l].state ≠ s.restState l) (last : ∀ k : Fin 8, l < k → s.lines[k].state = s.restState k) :
    (s.toldOfRelease q).Tells (.line l s.lines[l].state (s.restState l) (.ofFn s.restState)) :=
  s.lineTold_last _ l (State.classTold_tells h).1 new last

theorem State.notifyAll_get (b : NoticeBody) (s : State) (p : Fin 3) :
    (s.notifyAll b).ports[p] = (s.ports[p].notify b).settle s.tick := State.mapPorts_get p (fun _ q => q.notify b) s

/-- The ports at the first tick, before any notice: sampling the permits settles them at the tick before. -/
theorem State.started_notify {straps : BitVec 3} {s : State} (b : NoticeBody) (p : Fin 3) :
    ((s.started straps).notifyAll b).ports[p] =
      (({ s.ports[p] with
          permit := if s.mon.cause = .powerOn then straps.getLsbD p else s.ports[p].permit } : Port).notify b).settle
        (if s.mon.cause = .powerOn then s.tick else s.tick + 1) := by
  rw [State.notifyAll_get]
  by_cases cold : s.mon.cause = .powerOn
  · have sampled : (s.started straps).ports = (s.mapPorts fun p q => { q with permit := straps.getLsbD p.val }).ports :=
      if_pos cold
    rw [sampled, State.mapPorts_get, if_pos cold, if_pos cold, Port.settle_notify_settle]
  · have kept : (s.started straps).ports = s.ports := if_neg cold
    rw [kept, if_neg cold, if_neg cold]
    rfl

theorem State.released_spec {straps : BitVec 3} {s v : State} (hv : v = s.released straps) :
    v = { s.started straps with
      time := s.held.addTick, rolled := s.rolled.next s.held.rolls
      disc := { s.disc.clear with qualityAt :=
        (if (s.disc.state ≠ .unset ∨ s.disc.suspect = true) ∧ s.disc.qualityAt.map Prod.fst ≠ some (s.tick + 1) then
          some (s.tick + 1, s.disc.state) else s.disc.qualityAt) }
      ports := v.ports }
    ∧ ∀ p : Fin 3, v.ports[p] = (s.classTold { s.ports[p] with
          permit := if s.mon.cause = .powerOn then straps.getLsbD p else s.ports[p].permit }).settle
        (if s.mon.cause = .powerOn then s.tick else s.tick + 1) := by
  obtain ⟨w, hw⟩ : ∃ w, w = s.started straps := ⟨_, rfl⟩
  have disc : w.disc = s.disc := by rw [hw]; rfl
  have tick : w.tick = s.tick + 1 := by rw [hw]; rfl
  have form : v = (w.led s.held.addTick (s.rolled.next s.held.rolls) s.disc.clear
      [.invalid (some s.mon.cause)]).raiseQuality w.disc.state w.disc.suspect := by
    rw [hv, disc, hw]
    rfl
  obtain ⟨whole, note⟩ := State.raiseQuality_led (d := s.disc.clear) (congrArg Discipline.qualityAt disc.symm :) form
  have state : v.disc.state = .unset := (congrArg (fun u : State => u.disc.state) whole :)
  have suspect : v.disc.suspect = false := (congrArg (fun u : State => u.disc.suspect) whole :)
  have ports : v.ports = (w.raised v [.invalid (some s.mon.cause)]).ports := (congrArg State.ports whole :)
  have told (p : Fin 3) : (sweep State.notifyAll [.invalid (some s.mon.cause)] w).ports[p] =
      (({ s.ports[p] with
          permit := if s.mon.cause = .powerOn then straps.getLsbD p else s.ports[p].permit } : Port).notify
        (.invalid (some s.mon.cause))).settle (if s.mon.cause = .powerOn then s.tick else s.tick + 1) := by
    rw [hw]
    exact State.started_notify (straps := straps) (s := s) (.invalid (some s.mon.cause)) p
  have changed : w.Changed v ↔ s.disc.state ≠ .unset ∨ s.disc.suspect = true := by
    rw [State.Changed, state, suspect, disc]
    rw [not_and_or, eq_comm (a := Quality.unset), eq_comm (a := false), Bool.not_eq_false]
  constructor
  · have quality : v.disc.qualityAt =
        if (s.disc.state ≠ .unset ∨ s.disc.suspect = true) ∧ s.disc.qualityAt.map Prod.fst ≠ some (s.tick + 1) then
          some (s.tick + 1, s.disc.state) else s.disc.qualityAt :=
      note.trans (if_congr (and_congr changed (by rw [disc, tick])) (by rw [tick, disc]) (by rw [disc]))
    refine whole.trans ?_
    rw [ports, hw, quality]
  · intro p
    rw [ports, State.classTold]
    by_cases same : s.disc.state = .unset ∧ s.disc.suspect = false
    · rw [if_pos same, State.raised_same fun h => (changed.1 h).elim (absurd same.1) fun yes => absurd same.2 (by rw [yes]; decide)]
      exact told p
    · have moved : w.Changed v := changed.2 (by rwa [not_and_or, Bool.not_eq_false] at same)
      rw [if_neg same]
      by_cases again : s.disc.qualityAt.map Prod.fst = some (s.tick + 1)
      · obtain ⟨⟨n, before⟩, second, now⟩ := Option.map_eq_some_iff.1 again
        rw [if_pos again, State.raised_again moved (by rw [disc]; exact second) (by rw [tick]; exact now),
          State.mapPorts_get, told, State.sweep_notifyAll_tick, Port.settle_amend_settle, state, suspect, second]
        rfl
      · rw [if_neg again, State.raised_new moved (by rw [disc, tick]; exact again), sweep_append]
        change ((sweep State.notifyAll _ w).notifyAll _).ports[p] = _
        rw [State.notifyAll_get, told, Port.settle_notify_settle, state, suspect, disc]

theorem Rollover.next_no (r : Rollover) : r.next false = .none := rfl

theorem Rollover.next_yes (r : Rollover) : r.next true = if r = .early then .taken else .waiting := rfl

/-- The first increment of a held counter (10 R188; 01 R1, R23). -/
theorem State.held_addTick (s : State) {w : Nat} (hw : w = s.time.within + increment s.disc.rate 0) :
    (w < Config.unitsPerSec →
      s.held.addTick = { s.time with
        inc := increment s.disc.rate 0, ns := w / 2 ^ 32, frac := w % 2 ^ 32, excess := 0 }
      ∧ s.rolled.next s.held.rolls = .none)
    ∧ (Config.unitsPerSec ≤ w → s.time.sec < 2 ^ 40 - 1 →
      s.held.addTick = { s.time with
        inc := increment s.disc.rate 0, sec := s.time.sec + 1, ns := (w - Config.unitsPerSec) / 2 ^ 32
        frac := (w - Config.unitsPerSec) % 2 ^ 32, excess := 0 }
      ∧ s.rolled.next s.held.rolls = (if s.rolled = .early then .taken else .waiting))
    ∧ (Config.unitsPerSec ≤ w → 2 ^ 40 - 1 ≤ s.time.sec →
      s.held.addTick = { s.time with
        inc := increment s.disc.rate 0, sec := 2 ^ 40 - 1, ns := 999999999, frac := 2 ^ 32 - 1
        excess := w - (Config.unitsPerSec - 1) }
      ∧ s.rolled.next s.held.rolls = .none) := by
  have reach : s.held.within + s.held.inc = w := hw.symm
  have sec : s.held.sec = s.time.sec := rfl
  refine ⟨fun below => ?_, fun past early => ?_, fun past last => ?_⟩
  · obtain ⟨add, rolls⟩ := s.held.addTick_below (by rw [reach]; exact below)
    rw [add, rolls, Rollover.next_no, reach]
    exact ⟨rfl, rfl⟩
  · obtain ⟨add, rolls⟩ := s.held.addTick_roll (by rw [reach]; exact past) (by rw [sec]; exact early)
    rw [add, rolls, Rollover.next_yes, reach]
    exact ⟨rfl, rfl⟩
  · obtain ⟨add, rolls⟩ := s.held.addTick_max (by rw [reach]; exact past) (by rw [sec]; exact last)
    rw [add, rolls, Rollover.next_no, reach]
    exact ⟨rfl, rfl⟩

theorem State.releaseReady_iff (s : State) :
    s.releaseReady = true ↔ s.mon.phase = .stopped ∨ s.mon.phase = .clockQualify ∧ s.mon.good = 4096 := by
  rw [State.releaseReady, Bool.or_eq_true, Bool.and_eq_true, beq_iff_eq, beq_iff_eq, Monitor.complete, beq_iff_eq]
  rfl

theorem State.not_running_of_releaseReady {s : State} (h : s.releaseReady = true) : s.running = false := by
  obtain h | ⟨h, -⟩ := s.releaseReady_iff.1 h <;> rw [State.running, h] <;> rfl

/-- The core with its lines at rest, before the latch of RSTN is taken. -/
theorem State.rested_spec {straps : BitVec 3} {s t : State}
    (ht : t = sweep State.restartLine allLines (s.released straps)) :
    t = { s.started straps with
      time := s.held.addTick, rolled := s.rolled.next s.held.rolls
      disc := { s.disc.clear with qualityAt :=
        (if (s.disc.state ≠ .unset ∨ s.disc.suspect = true) ∧ s.disc.qualityAt.map Prod.fst ≠ some (s.tick + 1) then
          some (s.tick + 1, s.disc.state) else s.disc.qualityAt) }
      lines := t.lines, ports := t.ports }
    ∧ (∀ l : Fin 8, t.lines[l] = s.lines[l].atRest)
    ∧ ∀ p : Fin 3, t.ports[p] = (s.toldOfRelease { s.ports[p] with
          permit := if s.mon.cause = .powerOn then straps.getLsbD p else s.ports[p].permit }).settle
        (if s.mon.cause = .powerOn then s.tick else s.tick + 1) := by
  obtain ⟨v, hv⟩ : ∃ v, v = s.released straps := ⟨_, rfl⟩
  obtain ⟨whole, ports⟩ := State.released_spec hv
  have lines : v.lines = s.lines := (congrArg State.lines whole :)
  obtain ⟨told, rest, notified⟩ := v.sweep_restartLine 8 (Nat.le_refl 8)
  rw [← hv] at ht
  rw [show allLines.take 8 = allLines from rfl, ← ht] at told rest notified
  refine ⟨?_, fun l => ?_, fun p => ?_⟩
  · rw [State.LinesTold, whole] at told
    exact told
  · rw [rest, if_pos l.isLt, lines]
  · have same : v.lineTold = s.lineTold := by
      have rest : v.restState = s.restState := funext fun l => restState_atRest (by rw [lines])
      funext q l
      rw [State.lineTold, State.lineTold, rest, lines]
    rw [notified p _ _ (ports p), same, State.toldOfRelease_eq]

theorem State.mapInterps_release_get (i : Fin 13) (s : State) :
    (s.mapInterps Interp.release).interps[i] = { s.interps[i] with
      presented := [], captured := 0, conv := none, sample := none, lastEnd := none, coarse := []
      collection := some { bins := Vector.replicate 32 0, samples := 0 } } := State.mapInterps_get i Interp.release s

/-- Settles O50: `State.releaseCore_eq` with `State.rested_spec`, where the latch of RSTN is empty. -/
theorem theCoreIsReleased : Obligations.TheCoreIsReleased := by
  refine ⟨fun s => ⟨s.releaseReady_iff, fun ready => ?_, fun held straps => ?_⟩, fun straps s ready high empty => ?_⟩
  · have held := State.not_running_of_releaseReady ready
    refine congrArg Host.Outcome.next (((if_neg (by rw [held]; decide)).trans (if_pos ready)).trans (if_pos ready).symm)
  · exact congrArg Host.Outcome.next (if_neg (by rw [held]; decide))
  · obtain ⟨t, ht⟩ : ∃ t, t = sweep State.restartLine allLines (s.released straps) := ⟨_, rfl⟩
    obtain ⟨whole, lines, ports⟩ := State.rested_spec ht
    refine ⟨t, congrArg Host.Outcome.next ((if_pos (s.releaseReady_iff.2 ready)).trans ?_), ?_⟩
    · have latched : t.mon.latched = false := (congrArg (fun u : State => u.mon.latched) whole).trans empty
      have low : t.rstnLow = false := (congrArg State.rstnLow whole).trans high
      rw [State.releaseCore_eq, ← ht, State.takeLatch, latched, low]
      rfl
    have time : t.time = s.held.addTick := (congrArg State.time whole :)
    have rolled : t.rolled = s.rolled.next s.held.rolls := (congrArg State.rolled whole :)
    have disc := (congrArg State.disc whole :)
    have interps : t.interps = (s.mapInterps Interp.release).interps := (congrArg State.interps whole :)
    have markers : t.markers = (s.mapMarkers Marker.release).markers := (congrArg State.markers whole :)
    refine ⟨?_, disc, fun w hw => ?_, fun i => ?_, lines, fun m => ?_, fun p => ⟨ports p, fun serves => ?_,
      fun l serves new last => ?_⟩⟩
    · refine whole.trans ?_
      rw [time, rolled, disc, interps, markers]
      rfl
    · rw [time, rolled]
      exact s.held_addTick hw
    · rw [interps]
      exact State.mapInterps_release_get i s
    · rw [markers]
      exact State.mapMarkers_get m Marker.release s
    · have tells : t.ports[p].Tells (.invalid (some s.mon.cause)) := by
        rw [ports p]
        exact (State.toldOfRelease_invalid (Port.permitted_inService _ _ serves)).settle _
      exact tells.2
    · have tells : t.ports[p].Tells (.line l s.lines[l].state (s.restState l) (.ofFn s.restState)) := by
        rw [ports p]
        exact (State.toldOfRelease_line (Port.permitted_inService _ _ serves) new last).settle _
      exact tells.2

end Sys2Proof.Machine

/-! PROOF. What the actions of a core do, bank by bank: each writes one part of the state and keeps what is good there. The
frames and the invariants of every operation follow from the banks that it writes. -/

namespace Sys2Proof.Machine

/-! ## Banks and actions -/

/-- The parts of the state that one action writes. -/
inductive Bank where
  | clock
  | secp
  | reading
  | interp
  | cal
  | line
  | arrival
  | table
  | subs
  | marker
  | pending
  | port
  | permit
  | engineOut
  | markerOut
  | rstn
  | count
  | invalid

/-- The value of the timescale is in its range, with the increment of the terms in force (01 R1, R2). -/
def State.ValueOk (s : State) : Prop :=
  s.time.sec ≤ Config.maxSec ∧ s.time.ns < Config.nsPerSec ∧ s.time.frac < 2 ^ 32
    ∧ s.time.inc = increment s.disc.rate s.disc.slew ∧ (s.time.excess ≠ 0 → s.time.sec = Config.maxSec)

/-- The counter and its controller are good. -/
def State.ClockOk (s : State) : Prop := s.ValueOk ∧ s.DisciplineOk

/-- What every action that writes ports keeps: what a port holds, DOWN under RSTN, the record store. -/
structure State.PortsKept (s t : State) : Prop where
  good : ∀ p : Fin 3, s.ports[p].Ok → t.ports[p].Ok
  down : s.rstnAsserted = true → ∀ p : Fin 3, s.ports[p].state = .down → t.ports[p].state = .down
  store : s.QuotasOk → s.PoolOk → t.QuotasOk ∧ t.PoolOk

/-- An action on a bank leaves every other as it is. -/
def Bank.Frame (s t : State) : Bank → Prop
  | .clock => t = { s with
      time := t.time, rolled := t.rolled, disc := t.disc, secp := t.secp, secpRise := t.secpRise, secpFell := t.secpFell }
  | .secp => t = { s with secp := t.secp, secpRise := t.secpRise, secpFell := t.secpFell }
  | .reading => t = { s with
      interps := t.interps, ports := t.ports
      pool := { s.pool with entries := t.pool.entries, fromEngine := t.pool.fromEngine } }
  | .interp => t = { s with interps := t.interps }
  | .cal => t = { s with calExpiry := t.calExpiry }
  | .line => t = { s with lines := t.lines }
  | .arrival => t = { s with arrivals := t.arrivals }
  | .table => t = { s with channels := t.channels, pairModes := t.pairModes }
  | .subs => t = { s with unmapped := t.unmapped, markerSubs := t.markerSubs }
  | .marker => t = { s with markers := t.markers }
  | .pending => t = { s with markerPending := t.markerPending }
  | .port => t = { s with
      ports := t.ports, pool := { s.pool with entries := t.pool.entries, next := t.pool.next } }
  | .permit => t = { s with ports := t.ports }
  | .engineOut => t = { s with pool := { s.pool with fromEngine := t.pool.fromEngine } }
  | .markerOut => t = { s with pool := { s.pool with fromMarkers := t.pool.fromMarkers } }
  | .rstn => t = { s with rstnAsserted := t.rstnAsserted, rstnReleaseAt := t.rstnReleaseAt }
  | .count => t = { s with edgeSeq := t.edgeSeq, free := t.free }
  | .invalid => t = { s with mon := { s.mon with invalid := t.mon.invalid } }

/-- What an action on a bank keeps there. -/
def Bank.Effect (s t : State) : Bank → Prop
  | .clock => (s.ClockOk → t.ClockOk) ∧ (s.SecpOk → t.SecpOk)
  | .secp => s.SecpOk → t.SecpOk
  | .reading => ∃ r : Reading, t = s.rereadAs r ∧ (s.ClockOk → r.Ok)
  | .interp => ∀ i : Fin 13, (s.interps[i].Ok → t.interps[i].Ok)
      ∧ (s.ClockOk → s.interps[i].ReadingsOk → t.interps[i].ReadingsOk)
  | .line => ∀ l : Fin 8, (s.lines[l].Ok s.running → t.lines[l].Ok s.running)
      ∧ (s.rstnAsserted = true → s.lines[l].receiving = false → t.lines[l].receiving = false)
  | .table => s.TableOk → t.TableOk
  | .marker => ∀ m : Fin 4, s.markers[m].Ok → t.markers[m].Ok
  | .pending => ∀ (p : Fin 3) (m : Fin 4), s.markerPending[p][m] ≤ 255 → t.markerPending[p][m] ≤ 255
  | .port => s.PortsKept t ∧ ∀ p : Fin 3, t.ports[p].permit = s.ports[p].permit
  | .permit => s.PortsKept t
  | .rstn => t.RstnOk
  | .invalid => t.mon.invalid = false
  | _ => True

/-- One action: what it leaves and what it keeps. -/
structure Act (s t : State) (b : Bank) : Prop where
  frame : b.Frame s t
  effect : b.Effect s t

/-- Some actions on some banks, one after another. -/
inductive Works (K : List Bank) (s : State) : State → Prop
  | refl : Works K s s
  | tail {t u : State} {b : Bank} : Works K s t → b ∈ K → Act t u b → Works K s u

namespace Works
variable {K L : List Bank} {s t u : State}

theorem one {b : Bank} (h : Act s t b) : Works [b] s t := .tail .refl (List.mem_singleton_self b) h

theorem mono (h : Works K s t) (sub : K ⊆ L) : Works L s t := by
  induction h with
  | refl => exact .refl
  | tail _ mem act ih => exact .tail ih (sub mem) act

theorem trans (st : Works K s t) (tu : Works K t u) : Works K s u := by
  induction tu with
  | refl => exact st
  | tail _ mem act ih => exact .tail ih mem act

theorem sweep {α : Type} {f : α → State → State} (h : ∀ x u, Works K u (f x u)) (xs : List α) (s : State) :
    Works K s (sweep f xs s) := by
  induction xs generalizing s with
  | nil => exact .refl
  | cons x xs ih => exact (h x s).trans (ih _)

theorem times {f : State → State} (h : ∀ u, Works K u (f u)) (n : Nat) (s : State) : Works K s (times f n s) := by
  induction n generalizing s with
  | zero => exact .refl
  | succ n ih => exact (h s).trans (ih _)

theorem ite {c : Prop} [Decidable c] (yes : c → Works K s t) (no : ¬c → Works K s u) :
    Works K s (if c then t else u) := by
  by_cases h : c
  · rw [if_pos h]
    exact yes h
  · rw [if_neg h]
    exact no h

/-- What no action on these banks changes, some actions on them do not change. -/
theorem keeps {α : Type} (view : State → α) (h : Works K s t)
    (step : ∀ b ∈ K, ∀ u v, Act u v b → view v = view u) : view t = view s := by
  induction h with
  | refl => rfl
  | tail _ mem act ih => exact (step _ mem _ _ act).trans ih

/-- What every action on these banks keeps good, some actions on them keep good. -/
theorem preserves {P : State → Prop} (h : Works K s t) (step : ∀ b ∈ K, ∀ u v, Act u v b → P u → P v) (hs : P s) :
    P t := by
  induction h with
  | refl => exact hs
  | tail _ mem act ih => exact step _ mem _ _ act ih

end Works

/-! ## What no action changes -/

theorem Act.fixed {s t : State} {b : Bank} (h : Act s t b) :
    t.pending = s.pending ∧ t.tick = s.tick ∧ t.straps = s.straps ∧ t.rstnLow = s.rstnLow
      ∧ t.mon = { s.mon with invalid := t.mon.invalid } := by
  have frame := h.frame
  cases b <;> (rw [Bank.Frame] at frame; rw [frame]; exact ⟨rfl, rfl, rfl, rfl, rfl⟩)

section
variable {K : List Bank} {s t : State} {b : Bank}

theorem Act.clock_kept (h : Act s t b) (no : b ≠ .clock) :
    t.time = s.time ∧ t.rolled = s.rolled ∧ t.disc = s.disc := by
  have frame := h.frame
  cases b with
  | clock => exact absurd rfl no
  | _ =>
    rw [Bank.Frame] at frame
    rw [frame]
    exact ⟨rfl, rfl, rfl⟩

theorem Act.secp_kept (h : Act s t b) (no0 : b ≠ .clock) (no1 : b ≠ .secp) :
    t.secp = s.secp ∧ t.secpRise = s.secpRise ∧ t.secpFell = s.secpFell := by
  have frame := h.frame
  cases b with
  | clock => exact absurd rfl no0
  | secp => exact absurd rfl no1
  | _ =>
    rw [Bank.Frame] at frame
    rw [frame]
    exact ⟨rfl, rfl, rfl⟩

theorem Act.interps_kept (h : Act s t b) (no0 : b ≠ .interp) (no1 : b ≠ .reading) :
    t.interps = s.interps := by
  have frame := h.frame
  cases b with
  | interp => exact absurd rfl no0
  | reading => exact absurd rfl no1
  | _ =>
    rw [Bank.Frame] at frame
    rw [frame]

theorem Act.cal_kept (h : Act s t b) (no : b ≠ .cal) :
    t.calExpiry = s.calExpiry := by
  have frame := h.frame
  cases b with
  | cal => exact absurd rfl no
  | _ =>
    rw [Bank.Frame] at frame
    rw [frame]

theorem Act.lines_kept (h : Act s t b) (no : b ≠ .line) :
    t.lines = s.lines := by
  have frame := h.frame
  cases b with
  | line => exact absurd rfl no
  | _ =>
    rw [Bank.Frame] at frame
    rw [frame]

theorem Act.arrivals_kept (h : Act s t b) (no : b ≠ .arrival) :
    t.arrivals = s.arrivals := by
  have frame := h.frame
  cases b with
  | arrival => exact absurd rfl no
  | _ =>
    rw [Bank.Frame] at frame
    rw [frame]

theorem Act.table_kept (h : Act s t b) (no : b ≠ .table) :
    t.channels = s.channels ∧ t.pairModes = s.pairModes := by
  have frame := h.frame
  cases b with
  | table => exact absurd rfl no
  | _ =>
    rw [Bank.Frame] at frame
    rw [frame]
    exact ⟨rfl, rfl⟩

theorem Act.subs_kept (h : Act s t b) (no : b ≠ .subs) :
    t.unmapped = s.unmapped ∧ t.markerSubs = s.markerSubs := by
  have frame := h.frame
  cases b with
  | subs => exact absurd rfl no
  | _ =>
    rw [Bank.Frame] at frame
    rw [frame]
    exact ⟨rfl, rfl⟩

theorem Act.markers_kept (h : Act s t b) (no : b ≠ .marker) :
    t.markers = s.markers := by
  have frame := h.frame
  cases b with
  | marker => exact absurd rfl no
  | _ =>
    rw [Bank.Frame] at frame
    rw [frame]

theorem Act.pending_kept (h : Act s t b) (no : b ≠ .pending) :
    t.markerPending = s.markerPending := by
  have frame := h.frame
  cases b with
  | pending => exact absurd rfl no
  | _ =>
    rw [Bank.Frame] at frame
    rw [frame]

theorem Act.ports_kept (h : Act s t b) (no0 : b ≠ .port) (no1 : b ≠ .permit) (no2 : b ≠ .reading) :
    t.ports = s.ports := by
  have frame := h.frame
  cases b with
  | port => exact absurd rfl no0
  | permit => exact absurd rfl no1
  | reading => exact absurd rfl no2
  | _ =>
    rw [Bank.Frame] at frame
    rw [frame]

theorem Act.fromEngine_kept (h : Act s t b) (no0 : b ≠ .engineOut) (no1 : b ≠ .reading) :
    t.pool.fromEngine = s.pool.fromEngine := by
  have frame := h.frame
  cases b with
  | engineOut => exact absurd rfl no0
  | reading => exact absurd rfl no1
  | _ =>
    rw [Bank.Frame] at frame
    rw [frame]

theorem Act.fromMarkers_kept (h : Act s t b) (no : b ≠ .markerOut) :
    t.pool.fromMarkers = s.pool.fromMarkers := by
  have frame := h.frame
  cases b with
  | markerOut => exact absurd rfl no
  | _ =>
    rw [Bank.Frame] at frame
    rw [frame]

theorem Act.entries_kept (h : Act s t b) (no0 : b ≠ .port) (no1 : b ≠ .reading) :
    t.pool.entries = s.pool.entries ∧ t.pool.next = s.pool.next := by
  have frame := h.frame
  cases b with
  | port => exact absurd rfl no0
  | reading => exact absurd rfl no1
  | _ =>
    rw [Bank.Frame] at frame
    rw [frame]
    exact ⟨rfl, rfl⟩

theorem Act.rstn_kept (h : Act s t b) (no : b ≠ .rstn) :
    t.rstnAsserted = s.rstnAsserted ∧ t.rstnReleaseAt = s.rstnReleaseAt := by
  have frame := h.frame
  cases b with
  | rstn => exact absurd rfl no
  | _ =>
    rw [Bank.Frame] at frame
    rw [frame]
    exact ⟨rfl, rfl⟩

theorem Act.mon_kept (h : Act s t b) (no : b ≠ .invalid) :
    t.mon = s.mon := by
  have frame := h.frame
  cases b with
  | invalid => exact absurd rfl no
  | _ =>
    rw [Bank.Frame] at frame
    rw [frame]

end

theorem State.rereadAs_port (r : Reading) (s : State) (p : Fin 3) :
    (s.rereadAs r).ports[p] = s.ports[p].reread p s.tick r := by
  match p with
  | 0 => rfl
  | 1 => rfl
  | 2 => rfl

theorem State.rereadAs_interp (r : Reading) (s : State) (i : Fin 13) :
    (s.rereadAs r).interps[i] = s.interps[i].reread s.tick r := State.mapInterps_get i (Interp.reread s.tick r) s

namespace Works
variable {K : List Bank} {s t : State}

theorem clock_kept (h : Works K s t) (no : Bank.clock ∉ K) : t.time = s.time ∧ t.rolled = s.rolled ∧ t.disc = s.disc :=
  h.preserves (P := fun u => u.time = s.time ∧ u.rolled = s.rolled ∧ u.disc = s.disc)
    (fun _ mem _ _ act hu => by
      obtain ⟨a, b, c⟩ := act.clock_kept (fun e => no (e ▸ mem))
      rwa [a, b, c]) ⟨rfl, rfl, rfl⟩

theorem secp_kept (h : Works K s t) (no0 : Bank.clock ∉ K) (no1 : Bank.secp ∉ K) :
    t.secp = s.secp ∧ t.secpRise = s.secpRise ∧ t.secpFell = s.secpFell :=
  h.preserves (P := fun u => u.secp = s.secp ∧ u.secpRise = s.secpRise ∧ u.secpFell = s.secpFell)
    (fun _ mem _ _ act hu => by
      obtain ⟨a, b, c⟩ := act.secp_kept (fun e => no0 (e ▸ mem)) (fun e => no1 (e ▸ mem))
      rwa [a, b, c]) ⟨rfl, rfl, rfl⟩

theorem interps_kept (h : Works K s t) (no0 : Bank.interp ∉ K) (no1 : Bank.reading ∉ K) : t.interps = s.interps :=
  h.keeps (fun u => u.interps) fun _ mem _ _ act => act.interps_kept (fun e => no0 (e ▸ mem)) (fun e => no1 (e ▸ mem))

theorem cal_kept (h : Works K s t) (no : Bank.cal ∉ K) : t.calExpiry = s.calExpiry :=
  h.keeps (fun u => u.calExpiry) fun _ mem _ _ act => act.cal_kept (fun e => no (e ▸ mem))

theorem lines_kept (h : Works K s t) (no : Bank.line ∉ K) : t.lines = s.lines :=
  h.keeps (fun u => u.lines) fun _ mem _ _ act => act.lines_kept (fun e => no (e ▸ mem))

theorem arrivals_kept (h : Works K s t) (no : Bank.arrival ∉ K) : t.arrivals = s.arrivals :=
  h.keeps (fun u => u.arrivals) fun _ mem _ _ act => act.arrivals_kept (fun e => no (e ▸ mem))

theorem table_kept (h : Works K s t) (no : Bank.table ∉ K) : t.channels = s.channels ∧ t.pairModes = s.pairModes :=
  h.preserves (P := fun u => u.channels = s.channels ∧ u.pairModes = s.pairModes)
    (fun _ mem _ _ act hu => by
      obtain ⟨a, b⟩ := act.table_kept (fun e => no (e ▸ mem))
      rwa [a, b]) ⟨rfl, rfl⟩

theorem subs_kept (h : Works K s t) (no : Bank.subs ∉ K) : t.unmapped = s.unmapped ∧ t.markerSubs = s.markerSubs :=
  h.preserves (P := fun u => u.unmapped = s.unmapped ∧ u.markerSubs = s.markerSubs)
    (fun _ mem _ _ act hu => by
      obtain ⟨a, b⟩ := act.subs_kept (fun e => no (e ▸ mem))
      rwa [a, b]) ⟨rfl, rfl⟩

theorem markers_kept (h : Works K s t) (no : Bank.marker ∉ K) : t.markers = s.markers :=
  h.keeps (fun u => u.markers) fun _ mem _ _ act => act.markers_kept (fun e => no (e ▸ mem))

theorem pending_kept (h : Works K s t) (no : Bank.pending ∉ K) : t.markerPending = s.markerPending :=
  h.keeps (fun u => u.markerPending) fun _ mem _ _ act => act.pending_kept (fun e => no (e ▸ mem))

theorem ports_kept (h : Works K s t) (no0 : Bank.port ∉ K) (no1 : Bank.permit ∉ K) (no2 : Bank.reading ∉ K) :
    t.ports = s.ports :=
  h.keeps (fun u => u.ports) fun _ mem _ _ act =>
    act.ports_kept (fun e => no0 (e ▸ mem)) (fun e => no1 (e ▸ mem)) (fun e => no2 (e ▸ mem))

theorem fromEngine_kept (h : Works K s t) (no0 : Bank.engineOut ∉ K) (no1 : Bank.reading ∉ K) :
    t.pool.fromEngine = s.pool.fromEngine :=
  h.keeps (fun u => u.pool.fromEngine) fun _ mem _ _ act =>
    act.fromEngine_kept (fun e => no0 (e ▸ mem)) (fun e => no1 (e ▸ mem))

theorem fromMarkers_kept (h : Works K s t) (no : Bank.markerOut ∉ K) : t.pool.fromMarkers = s.pool.fromMarkers :=
  h.keeps (fun u => u.pool.fromMarkers) fun _ mem _ _ act => act.fromMarkers_kept (fun e => no (e ▸ mem))

theorem entries_kept (h : Works K s t) (no0 : Bank.port ∉ K) (no1 : Bank.reading ∉ K) :
    t.pool.entries = s.pool.entries ∧ t.pool.next = s.pool.next :=
  h.preserves (P := fun u => u.pool.entries = s.pool.entries ∧ u.pool.next = s.pool.next)
    (fun _ mem _ _ act hu => by
      obtain ⟨a, b⟩ := act.entries_kept (fun e => no0 (e ▸ mem)) (fun e => no1 (e ▸ mem))
      rwa [a, b]) ⟨rfl, rfl⟩

theorem rstn_kept (h : Works K s t) (no : Bank.rstn ∉ K) :
    t.rstnAsserted = s.rstnAsserted ∧ t.rstnReleaseAt = s.rstnReleaseAt :=
  h.preserves (P := fun u => u.rstnAsserted = s.rstnAsserted ∧ u.rstnReleaseAt = s.rstnReleaseAt)
    (fun _ mem _ _ act hu => by
      obtain ⟨a, b⟩ := act.rstn_kept (fun e => no (e ▸ mem))
      rwa [a, b]) ⟨rfl, rfl⟩

theorem mon_kept (h : Works K s t) (no : Bank.invalid ∉ K) : t.mon = s.mon :=
  h.keeps (fun u => u.mon) fun _ mem _ _ act => act.mon_kept (fun e => no (e ▸ mem))

/-- What no action changes. -/
theorem fixed (h : Works K s t) : t.pending = s.pending ∧ t.tick = s.tick ∧ t.straps = s.straps ∧ t.rstnLow = s.rstnLow
    ∧ t.mon = { s.mon with invalid := t.mon.invalid } := by
  induction h with
  | refl => exact ⟨rfl, rfl, rfl, rfl, rfl⟩
  | tail _ _ act ih =>
    obtain ⟨pending, tick, straps, low, mon⟩ := act.fixed
    rw [pending, tick, straps, low]
    refine ⟨ih.1, ih.2.1, ih.2.2.1, ih.2.2.2.1, ?_⟩
    rw [mon, ih.2.2.2.2]

theorem tick (h : Works K s t) : t.tick = s.tick := h.fixed.2.1

theorem phase (h : Works K s t) : t.mon.phase = s.mon.phase := by
  obtain ⟨-, -, -, -, mon⟩ := h.fixed
  rw [mon]

theorem running (h : Works K s t) : t.running = s.running := by rw [State.running, State.running, h.phase]

/-- Only the sampling of the permits changes them. -/
theorem permits (h : Works K s t) (no : Bank.permit ∉ K) (p : Fin 3) : t.ports[p].permit = s.ports[p].permit :=
  h.keeps (fun u => u.ports[p].permit) fun b mem u v act => by
    cases b with
    | permit => exact absurd mem no
    | port => exact act.effect.2 p
    | reading =>
      obtain ⟨r, hv, -⟩ := act.effect
      rw [hv, State.rereadAs_port]
      rfl
    | _ => rw [act.ports_kept (by nofun) (by nofun) (by nofun)]

end Works

end Sys2Proof.Machine

/-! PROOF. Actions on ports and on the record store (08, 09). -/

namespace Sys2Proof.Machine

/-! ## What a port holds, but for what hangs on its other fields -/

/-- What a port in each state holds, before it settles. -/
structure Port.BodyOk (q : Port) : Prop where
  hold : q.holdTimer.isSome ↔ q.state = .held
  beat : q.hbTimer.isSome ↔ q.inService = true ∧ q.pacing.heartbeat ≠ 0
  out : q.inService = false → q.credits = 0 ∧ q.queue = [] ∧ q.notices = [] ∧ q.hbPending = false
  down : q.state = .down → q.cmds = [] ∧ q.tx = none ∧ q.attention = 0
  credits : q.credits ≤ maxCredits
  cmds : q.cmds.length ≤ commandQueueSize
  kinds : (q.notices.map fun n => n.body.kind).Nodup
  repeats : ∀ n ∈ q.notices, 1 ≤ n.repeats ∧ n.repeats ≤ 65535
  holdLow : 1 ≤ q.pacing.holdMs
  holdHigh : q.pacing.holdMs ≤ 1000
  replies : q.RepliesOk

theorem Port.Ok.body {q : Port} (h : q.Ok) : q.BodyOk := by
  obtain ⟨-, hold, beat, -, out, down, credits, cmds, kinds, repeats, low, high, replies⟩ := h
  exact ⟨hold, beat, out, down, credits, cmds, kinds, repeats, low, high, replies⟩

/-- Settling a port gives its silence timer and its lagging condition (08 R155; 09 R170). -/
theorem Port.BodyOk.settle {q : Port} (n : Nat) (h : q.BodyOk) : (q.settle n).Ok :=
  ⟨by rw [Port.settle_silenceTimer, Port.settle_silent], h.hold, h.beat, q.settle_lagging_room n, h.out, h.down, h.credits,
    h.cmds, h.kinds, h.repeats, h.holdLow, h.holdHigh, h.replies⟩

theorem Port.BodyOk.settled {q : Port} (n : Nat) (h : (q.settle n).BodyOk) : q.BodyOk :=
  ⟨h.hold, h.beat, h.out, h.down, h.credits, h.cmds, h.kinds, h.repeats, h.holdLow, h.holdHigh, h.replies⟩

/-- A change of a port that leaves its permit, its queue and its quota. -/
structure Port.Changes (q r : Port) : Prop where
  body : q.BodyOk → r.BodyOk
  down : q.state = .down → r.state = .down
  permit : r.permit = q.permit
  queue : r.queue = q.queue
  quota : r.quota = q.quota

theorem Port.Changes.refl (q : Port) : q.Changes q := ⟨id, id, rfl, rfl, rfl⟩

theorem Port.Changes.trans {q r x : Port} (qr : q.Changes r) (rx : r.Changes x) : q.Changes x :=
  ⟨rx.body ∘ qr.body, rx.down ∘ qr.down, rx.permit.trans qr.permit, rx.queue.trans qr.queue, rx.quota.trans qr.quota⟩

/-! ## Notices -/

theorem raiseInto_repeats (b : NoticeBody) {ns : List Notice} (h : ∀ n ∈ ns, 1 ≤ n.repeats ∧ n.repeats ≤ 65535) :
    ∀ n ∈ raiseInto b ns, 1 ≤ n.repeats ∧ n.repeats ≤ 65535 := by
  induction ns with
  | nil => exact List.forall_mem_singleton.2 ⟨Nat.le_refl 1, show 1 ≤ 65535 by decide⟩
  | cons a ns ih =>
    obtain ⟨first, rest⟩ := List.forall_mem_cons.1 h
    rw [raiseInto]
    split
    · exact List.forall_mem_cons.2 ⟨⟨by dsimp only; omega, Nat.min_le_right ..⟩, rest⟩
    · exact List.forall_mem_cons.2 ⟨first, ih rest⟩

theorem NoticeBody.merge_kind (a b : NoticeBody) : (a.merge b).kind = b.kind := by cases a <;> cases b <;> rfl

theorem amendInto_kinds (b : NoticeBody) (ns : List Notice) :
    (amendInto b ns).map (fun n => n.body.kind) = (raiseInto b ns).map fun n => n.body.kind := by
  induction ns with
  | nil => rfl
  | cons a ns ih =>
    rw [amendInto, raiseInto]
    split
    · next same =>
      exact congrArg (· :: ns.map fun n => n.body.kind) (a.body.merge_kind b).symm
    · exact congrArg (a.body.kind :: ·) ih

theorem amendInto_repeats (b : NoticeBody) {ns : List Notice} (h : ∀ n ∈ ns, 1 ≤ n.repeats ∧ n.repeats ≤ 65535) :
    ∀ n ∈ amendInto b ns, 1 ≤ n.repeats ∧ n.repeats ≤ 65535 := by
  induction ns with
  | nil => exact List.forall_mem_singleton.2 ⟨Nat.le_refl 1, show 1 ≤ 65535 by decide⟩
  | cons a ns ih =>
    obtain ⟨first, rest⟩ := List.forall_mem_cons.1 h
    rw [amendInto]
    split
    · exact List.forall_mem_cons.2 ⟨first, rest⟩
    · exact List.forall_mem_cons.2 ⟨first, ih rest⟩

/-- A port that takes new notices, where it is in service, and sets a condition, where it is not DOWN. -/
theorem Port.changes_told {q : Port} {notices : List Notice} {attention : BitVec 9}
    (kinds : (q.notices.map fun n => n.body.kind).Nodup → (notices.map fun n => n.body.kind).Nodup)
    (repeats : (∀ n ∈ q.notices, 1 ≤ n.repeats ∧ n.repeats ≤ 65535) → ∀ n ∈ notices, 1 ≤ n.repeats ∧ n.repeats ≤ 65535)
    (out : q.inService = false → notices = q.notices) (down : q.state = .down → attention = q.attention) :
    q.Changes { q with attention := attention, notices := notices } where
  body h := {
    hold := h.hold, beat := h.beat, credits := h.credits, cmds := h.cmds, holdLow := h.holdLow, holdHigh := h.holdHigh
    replies := h.replies, kinds := kinds h.kinds, repeats := repeats h.repeats
    out := fun leaves => by
      rw [show _ = notices from rfl, out leaves]
      exact h.out leaves
    down := fun lost => by
      rw [show _ = attention from rfl, down lost]
      exact h.down lost }
  down := id
  permit := rfl
  queue := rfl
  quota := rfl

theorem Port.changes_notify (b : NoticeBody) (q : Port) : q.Changes (q.notify b) := by
  rw [Port.notify_eq]
  by_cases serves : q.inService = true
  · rw [if_pos serves]
    exact Port.changes_told (raiseInto_nodup b _) (raiseInto_repeats b)
      (fun out => absurd serves (by rw [out]; decide)) fun down => if_pos down
  · rw [if_neg serves]
    exact Port.changes_told id id (fun _ => rfl) fun down => if_pos down

theorem Port.changes_amend (b : NoticeBody) (q : Port) : q.Changes (q.amend b) := by
  rw [Port.amend_eq]
  by_cases serves : q.inService = true
  · rw [if_pos serves]
    exact Port.changes_told (fun h => by rw [amendInto_kinds]; exact raiseInto_nodup b _ h) (amendInto_repeats b)
      (fun out => absurd serves (by rw [out]; decide)) fun down => if_pos down
  · rw [if_neg serves]
    exact Port.changes_told id id (fun _ => rfl) fun down => if_pos down

theorem Port.changes_attend (bit : Nat) (q : Port) : q.Changes (q.attend bit) := by
  rw [Port.attend_eq]
  exact Port.changes_told (notices := q.notices) id id (fun _ => rfl) fun down => if_pos down

/-! ## Actions that leave the queues -/

/-- The store is good where the queues, the quotas and the numbers and references of the entries are the same. -/
theorem State.store_congr {s t : State} (queues : ∀ p : Fin 3, t.ports[p].queue = s.ports[p].queue)
    (quotas : ∀ p : Fin 3, t.ports[p].quota = s.ports[p].quota) (entries : t.pool.entries = s.pool.entries)
    (next : t.pool.next = s.pool.next) (q : s.QuotasOk) (h : s.PoolOk) : t.QuotasOk ∧ t.PoolOk := by
  have holders (id : Nat) : t.holders id = s.holders id := by
    simp only [State.holders, queues]
  obtain ⟨ranges, sum⟩ := q
  have commitment (p : Fin 3) : t.ports[p].commitment = s.ports[p].commitment := by
    rw [Port.commitment, Port.commitment, queues, quotas]
  refine ⟨⟨fun p => by rw [quotas]; exact ranges p, ?_⟩, ?_⟩
  · refine Nat.le_trans (Nat.le_of_eq ?_) sum
    exact congrArg₂ (· + ·) (congrArg₂ (· + ·) (commitment 0) (commitment 1)) (commitment 2)
  · obtain ⟨sorted, live, held⟩ := h
    rw [State.PoolOk, entries, next]
    exact ⟨sorted, fun e mem => by rw [holders]; exact live e mem, fun p => by rw [queues]; exact held p⟩

namespace Works

/-- Each port changes, but for its permit, its queue and its quota. -/
theorem ports {s t : State} (frame : t = { s with ports := t.ports })
    (changes : ∀ p : Fin 3, s.ports[p].Changes t.ports[p])
    (good : ∀ p : Fin 3, s.ports[p].Ok → t.ports[p].Ok) : Works [.port] s t := by
  have pool : t.pool = s.pool := (congrArg State.pool frame :)
  refine one ⟨?_, ⟨good, fun _ p => (changes p).down, ?_⟩, fun p => (changes p).permit⟩
  · rw [Bank.Frame, pool]
    exact frame
  · exact State.store_congr (fun p => (changes p).queue) (fun p => (changes p).quota) (by rw [pool]) (by rw [pool])

theorem changes_settle {q r : Port} (n : Nat) (h : q.Changes r) : q.Changes (r.settle n) :=
  ⟨fun ok => (h.body ok).settle n |>.body, h.down, h.permit, h.queue, h.quota⟩

theorem updPort {p : Fin 3} {f : Port → Port} {s : State} (h : s.ports[p].Changes (f s.ports[p])) :
    Works [.port] s (s.updPort p f) := by
  refine ports rfl (fun k => ?_) fun k ok => ?_
  · rw [State.updPort_get]
    split
    · next same => rw [same]; exact changes_settle _ h
    · exact .refl _
  · rw [State.updPort_get]
    split
    · next same => exact (h.body (same ▸ ok).body).settle _
    · exact ok

theorem mapPorts {f : Fin 3 → Port → Port} {s : State} (h : ∀ p : Fin 3, s.ports[p].Changes (f p s.ports[p])) :
    Works [.port] s (s.mapPorts f) := by
  refine ports rfl (fun k => ?_) fun k ok => ?_
  · rw [State.mapPorts_get]
    exact changes_settle _ (h k)
  · rw [State.mapPorts_get]
    exact ((h k).body ok.body).settle _

theorem notifyAll (b : NoticeBody) (s : State) : Works [.port] s (s.notifyAll b) := mapPorts fun _ => Port.changes_notify b _

end Works

/-! ## Actions that release references (08 R150, R151) -/

theorem State.holders_eq (id : Nat) (s : State) : s.holders id =
    (if id ∈ s.ports[(0 : Fin 3)].queue then 1 else 0) + (if id ∈ s.ports[(1 : Fin 3)].queue then 1 else 0)
      + (if id ∈ s.ports[(2 : Fin 3)].queue then 1 else 0) := by
  simp only [State.holders, allPorts, List.countP_cons, List.countP_nil, List.contains_iff_mem, Nat.zero_add]
  omega

/-- One queue changes: the holders of an entry change by that queue. -/
theorem State.holders_change {s t : State} {p : Fin 3} (id : Nat)
    (others : ∀ k : Fin 3, k ≠ p → t.ports[k].queue = s.ports[k].queue) :
    t.holders id + (if id ∈ s.ports[p].queue then 1 else 0) = s.holders id + (if id ∈ t.ports[p].queue then 1 else 0) := by
  rw [State.holders_eq, State.holders_eq]
  match p, others with
  | 0, others => rw [others 1 (by decide), others 2 (by decide)]; omega
  | 1, others => rw [others 0 (by decide), others 2 (by decide)]; omega
  | 2, others => rw [others 0 (by decide), others 1 (by decide)]; omega

theorem mem_releaseRefs {ids : List Nat} {es : List PoolEntry} {x : PoolEntry} :
    x ∈ releaseRefs ids es ↔
      ∃ e ∈ es, e.id ∉ ids ∧ x = e ∨ e.id ∈ ids ∧ 1 < e.refs ∧ x = { e with refs := e.refs - 1 } := by
  rw [releaseRefs, List.mem_filterMap]
  refine exists_congr fun e => and_congr_right fun _ => ?_
  by_cases held : e.id ∈ ids
  · by_cases last : e.refs ≤ 1
    · simp [held, last]
    · simp [held, last, Nat.lt_of_not_le last, eq_comm]
  · simp [held, eq_comm]

theorem releaseRefs_ids (ids : List Nat) (es : List PoolEntry) :
    ((releaseRefs ids es).map PoolEntry.id).Sublist (es.map PoolEntry.id) := by
  induction es with
  | nil => exact List.Sublist.slnil
  | cons e es ih =>
    rw [releaseRefs, List.filterMap_cons]
    split
    · exact ih.cons _
    · next x h =>
      have same : x.id = e.id := by
        split at h
        · split at h
          · cases h
          · cases h; rfl
        · cases h; rfl
      rw [List.map_cons, List.map_cons, same]
      exact ih.cons_cons _

theorem State.commitmentSum_le {s t : State} (h : ∀ k : Fin 3, t.ports[k].commitment ≤ s.ports[k].commitment) :
    t.commitmentSum ≤ s.commitmentSum :=
  Nat.add_le_add (Nat.add_le_add (h 0) (h 1)) (h 2)

/-- A queue that gives up its oldest entries, with their references, leaves the store good. -/
theorem State.store_release {s t : State} {p : Fin 3} {ids rest : List Nat} (own : s.ports[p].queue = ids ++ rest)
    (after : t.ports[p].queue = rest) (others : ∀ k : Fin 3, k ≠ p → t.ports[k].queue = s.ports[k].queue)
    (quotas : ∀ k : Fin 3, t.ports[k].quota = s.ports[k].quota) (entries : t.pool.entries = releaseRefs ids s.pool.entries)
    (next : t.pool.next = s.pool.next) (q : s.QuotasOk) (h : s.PoolOk) : t.QuotasOk ∧ t.PoolOk := by
  obtain ⟨ranges, sum⟩ := q
  obtain ⟨sorted, live, held⟩ := h
  have queue (k : Fin 3) : t.ports[k].queue.Sublist s.ports[k].queue := by
    by_cases same : k = p
    · subst same
      rw [after, own]
      exact List.sublist_append_right ids rest
    · rw [others k same]
  have apart : ∀ id ∈ ids, id ∉ rest := fun id mem mem' => by
    obtain ⟨order, -⟩ := held p
    rw [own] at order
    exact Nat.lt_irrefl id ((List.pairwise_append.1 order).2.2 id mem id mem')
  refine ⟨⟨fun k => by rw [quotas]; exact ranges k, Nat.le_trans (State.commitmentSum_le fun k => ?_) sum⟩, ?_, ?_,
    fun k => ⟨(held k).1.sublist (queue k), fun id mem => ?_⟩⟩
  · rw [Port.commitment, Port.commitment, quotas]
    have := (queue k).length_le
    omega
  · rw [entries]
    exact sorted.sublist (releaseRefs_ids _ _)
  · intro x mem
    rw [entries, mem_releaseRefs] at mem
    obtain ⟨e, mem, ⟨kept, rfl⟩ | ⟨given, more, rfl⟩⟩ := mem
    · obtain ⟨below, one, refs⟩ := live x mem
      have change := State.holders_change (s := s) (t := t) x.id others
      have same : x.id ∈ s.ports[p].queue ↔ x.id ∈ t.ports[p].queue := by
        rw [own, after, List.mem_append, or_iff_right kept]
      simp only [same] at change
      exact ⟨by rw [next]; exact below, one, by omega⟩
    · obtain ⟨below, -, refs⟩ := live e mem
      have change := State.holders_change (s := s) (t := t) e.id others
      rw [own, after, if_pos (List.mem_append_left rest given), if_neg (apart _ given)] at change
      exact ⟨by rw [next]; exact below, by dsimp only; omega, by dsimp only; omega⟩
  · obtain ⟨e, memE, rfl⟩ := List.mem_map.1 ((held k).2 id ((queue k).subset mem))
    rw [entries]
    by_cases given : e.id ∈ ids
    · have other : k ≠ p := by
        rintro rfl
        rw [after] at mem
        exact apart _ given mem
      obtain ⟨-, -, refs⟩ := live e memE
      have change := State.holders_change (s := s) (t := t) e.id others
      rw [own, after, if_pos (List.mem_append_left rest given), if_neg (apart _ given)] at change
      have still : 1 ≤ t.holders e.id := by
        rw [State.holders]
        exact List.one_le_countP_iff.2 ⟨k, mem_allPorts k, by rw [List.contains_iff_mem]; exact mem⟩
      exact List.mem_map.2 ⟨{ e with refs := e.refs - 1 },
        mem_releaseRefs.2 ⟨e, memE, .inr ⟨given, by omega, rfl⟩⟩, rfl⟩
    · exact List.mem_map.2 ⟨e, mem_releaseRefs.2 ⟨e, memE, .inl ⟨given, rfl⟩⟩, rfl⟩

theorem PortsKept.releasePort {p : Fin 3} {ids : List Nat} {f : Port → Port} {s : State}
    (own : s.ports[p].queue = ids ++ (f s.ports[p]).queue) (body : s.ports[p].BodyOk → (f s.ports[p]).BodyOk)
    (down : s.ports[p].state = .down → (f s.ports[p]).state = .down)
    (quota : (f s.ports[p]).quota = s.ports[p].quota) : s.PortsKept ((s.releaseIds ids).updPort p f) := by
  have get (k : Fin 3) : ((s.releaseIds ids).updPort p f).ports[k] =
      if k = p then (f s.ports[p]).settle s.tick else s.ports[k] := State.updPort_get p k f (s.releaseIds ids)
  refine ⟨fun k ok => ?_, fun _ k => ?_, State.store_release (p := p) own ?_ (fun k other => ?_) (fun k => ?_) rfl rfl⟩
  · rw [get]
    split
    · next same => exact (body (same ▸ ok).body).settle _
    · exact ok
  · rw [get]
    split
    · next same => rw [same]; exact down
    · exact id
  · rw [get, if_pos rfl]
    rfl
  · rw [get, if_neg other]
  · rw [get]
    split
    · next same => rw [same]; exact quota
    · rfl

/-- A port gives up the oldest entries of its queue. -/
theorem Works.releasePort {p : Fin 3} {ids : List Nat} {f : Port → Port} {s : State}
    (own : s.ports[p].queue = ids ++ (f s.ports[p]).queue) (body : s.ports[p].BodyOk → (f s.ports[p]).BodyOk)
    (down : s.ports[p].state = .down → (f s.ports[p]).state = .down)
    (quota : (f s.ports[p]).quota = s.ports[p].quota) (permit : (f s.ports[p]).permit = s.ports[p].permit) :
    Works [.port] s ((s.releaseIds ids).updPort p f) := by
  refine .one ⟨rfl, PortsKept.releasePort own body down quota, fun k => ?_⟩
  have get : ((s.releaseIds ids).updPort p f).ports[k] =
      if k = p then (f s.ports[p]).settle s.tick else s.ports[k] := State.updPort_get p k f (s.releaseIds ids)
  rw [get]
  split
  · next same => rw [same]; exact permit
  · rfl

/-! ## Offers (08 R147) -/

theorem Port.lose_changes (st : Stamp) (q : Port) : q.Changes (q.lose st) := by
  refine Port.Changes.trans (r := { q with lossTotal := satInc q.lossTotal, lagging := true }) ?_ (Port.changes_notify _ _)
  exact ⟨fun h => ⟨h.hold, h.beat, h.out, h.down, h.credits, h.cmds, h.kinds, h.repeats, h.holdLow, h.holdHigh, h.replies⟩,
    id, rfl, rfl, rfl⟩

/-- A port that is offered a record, where it is admitted. -/
def Port.given (admitted : Bool) (id : Nat) (st : Stamp) (q : Port) : Port := if admitted then q.offered id st else q

theorem Port.given_taken {q : Port} (admitted : Bool) (id : Nat) (st : Stamp) (takes : (admitted && q.takes) = true) :
    q.given admitted id st = { q with queue := q.queue ++ [id] } := by
  rw [Bool.and_eq_true, Port.takes, Bool.and_eq_true] at takes
  obtain ⟨rfl, serves, room⟩ := takes
  rw [Port.given, if_pos rfl, Port.offered, if_pos serves, if_pos room]

theorem Port.given_left {q : Port} (admitted : Bool) (id : Nat) (st : Stamp) (left : (admitted && q.takes) = false) :
    q.Changes (q.given admitted id st) := by
  rw [Port.given]
  split
  · next yes =>
    rw [yes, Bool.true_and, Port.takes] at left
    rw [Port.offered]
    split
    · next serves =>
      rw [serves, Bool.true_and] at left
      rw [left]
      exact Port.lose_changes st q
    · exact .refl q
  · exact .refl q

theorem Port.BodyOk.enqueue {q : Port} (id : Nat) (serves : q.inService = true) (h : q.BodyOk) :
    ({ q with queue := q.queue ++ [id] } : Port).BodyOk :=
  ⟨h.hold, h.beat, fun out => absurd serves (by rw [show q.inService = false from out]; decide), h.down, h.credits, h.cmds,
    h.kinds, h.repeats, h.holdLow, h.holdHigh, h.replies⟩

theorem Port.given_body {q : Port} (admitted : Bool) (id : Nat) (st : Stamp) :
    (q.BodyOk → (q.given admitted id st).BodyOk) ∧ (q.state = .down → (q.given admitted id st).state = .down)
      ∧ (q.given admitted id st).permit = q.permit ∧ (q.given admitted id st).quota = q.quota := by
  cases takes : admitted && q.takes with
  | true =>
    have serves : q.inService = true := by
      rw [Bool.and_eq_true, Port.takes, Bool.and_eq_true] at takes
      exact takes.2.1
    rw [Port.given_taken admitted id st takes]
    exact ⟨Port.BodyOk.enqueue id serves, fun h => h, rfl, rfl⟩
  | false =>
    have left := Port.given_left admitted id st takes
    exact ⟨left.body, left.down, left.permit, left.quota⟩

theorem Port.given_queue {q : Port} (admitted : Bool) (id : Nat) (st : Stamp) :
    (q.given admitted id st).queue = if (admitted && q.takes) = true then q.queue ++ [id] else q.queue := by
  split
  · next takes => rw [Port.given_taken admitted id st takes]
  · next left => exact (Port.given_left admitted id st (Bool.eq_false_iff.2 left)).queue

theorem Port.given_commitment {q : Port} (admitted : Bool) (id : Nat) (st : Stamp) :
    (q.given admitted id st).commitment = q.commitment := by
  rw [Port.commitment, Port.commitment, (Port.given_body admitted id st).2.2.2, Port.given_queue]
  split
  · next takes =>
    rw [Bool.and_eq_true, Port.takes, Bool.and_eq_true] at takes
    have room : q.queue.length < q.quota := of_decide_eq_true takes.2.2
    rw [List.length_append, List.length_singleton]
    omega
  · rfl

theorem State.offer_port (o : Offer) (s : State) (p : Fin 3) :
    (s.offer o).ports[p] = (s.ports[p].given o.ports[p] s.pool.next o.record.stamp).settle s.tick := by
  rw [State.offer_eq]
  exact State.mapPorts_get p (fun p q => if o.ports[p] then q.offered s.pool.next o.record.stamp else q) s

theorem State.offer_queue (o : Offer) (s : State) (p : Fin 3) :
    (s.offer o).ports[p].queue = if p ∈ s.takers o then s.ports[p].queue ++ [s.pool.next] else s.ports[p].queue := by
  rw [State.offer_port, Port.settle_queue, Port.given_queue, State.takers]
  refine if_congr ?_ rfl rfl
  rw [List.mem_filter]
  exact (and_iff_right (mem_allPorts p)).symm

/-- An offer keeps the store good: the new entry has one reference for each port that took it. -/
theorem State.store_offer {o : Offer} {s : State} (q : s.QuotasOk) (h : s.PoolOk) :
    (s.offer o).QuotasOk ∧ (s.offer o).PoolOk := by
  have quotas (p : Fin 3) : (s.offer o).ports[p].quota = s.ports[p].quota := by
    rw [State.offer_port, Port.settle_quota]
    exact (Port.given_body ..).2.2.2
  have queues := State.offer_queue o s
  by_cases none : s.takers o = []
  · refine State.store_congr (fun p => ?_) quotas ?_ ?_ q h
    · rw [queues, none, if_neg List.not_mem_nil]
    · rw [State.offer_eq]
      exact congrArg Pool.entries (if_pos none)
    · rw [State.offer_eq]
      exact congrArg Pool.next (if_pos none)
  obtain ⟨ranges, sum⟩ := q
  obtain ⟨sorted, live, held⟩ := h
  have pool : (s.offer o).pool = { s.pool with
      entries := s.pool.entries ++ [{ id := s.pool.next, record := o.record, refs := (s.takers o).length }]
      next := s.pool.next + 1 } := by
    rw [State.offer_eq]
    exact if_neg none
  have below (p : Fin 3) : ∀ id ∈ s.ports[p].queue, id < s.pool.next := fun id mem => by
    obtain ⟨e, memE, rfl⟩ := List.mem_map.1 ((held p).2 id mem)
    exact (live e memE).1
  have old (id : Nat) (h : id ≠ s.pool.next) (p : Fin 3) : id ∈ (s.offer o).ports[p].queue ↔ id ∈ s.ports[p].queue := by
    rw [queues]
    split
    · rw [List.mem_append, List.mem_singleton, or_iff_left h]
    · rfl
  have new (p : Fin 3) : s.pool.next ∈ (s.offer o).ports[p].queue ↔ p ∈ s.takers o := by
    rw [queues]
    split
    · next takes => exact iff_of_true (List.mem_append_right _ (List.mem_singleton_self _)) takes
    · next left => exact iff_of_false (fun mem => Nat.lt_irrefl _ (below p _ mem)) left
  refine ⟨⟨fun p => by rw [quotas]; exact ranges p, Nat.le_trans (State.commitmentSum_le fun p => ?_) sum⟩, ?_, ?_,
    fun p => ⟨?_, fun id mem => ?_⟩⟩
  · rw [State.offer_port]
    exact Nat.le_of_eq (Port.given_commitment ..)
  · rw [pool, List.map_append, List.pairwise_append]
    refine ⟨sorted, List.pairwise_singleton .., fun a mem b memB => ?_⟩
    obtain ⟨e, memE, rfl⟩ := List.mem_map.1 mem
    rw [List.map_singleton, List.mem_singleton] at memB
    rw [memB]
    exact (live e memE).1
  · intro e mem
    rw [pool] at mem ⊢
    obtain mem | mem := List.mem_append.1 mem
    · obtain ⟨lt, one, refs⟩ := live e mem
      have same : (s.offer o).holders e.id = s.holders e.id := by
        rw [State.holders, State.holders]
        refine List.countP_congr fun p _ => ?_
        rw [List.contains_iff_mem, List.contains_iff_mem]
        exact old e.id (Nat.ne_of_lt lt) p
      rw [same]
      exact ⟨Nat.lt_succ_of_lt lt, one, refs⟩
    · obtain rfl := List.mem_singleton.1 mem
      refine ⟨Nat.lt_succ_self _, List.length_pos_of_ne_nil none, ?_⟩
      rw [State.holders, State.takers, ← List.countP_eq_length_filter]
      refine List.countP_congr fun p mem => ?_
      rw [List.contains_iff_mem, new, State.takers, List.mem_filter, and_iff_right mem]
  · rw [queues]
    split
    · refine List.pairwise_append.2 ⟨(held p).1, List.pairwise_singleton .., fun a mem b memB => ?_⟩
      rw [List.mem_singleton.1 memB]
      exact below p a mem
    · exact (held p).1
  · rw [pool, List.map_append]
    by_cases h : id = s.pool.next
    · exact List.mem_append_right _ (by rw [h]; exact List.mem_singleton_self _)
    · exact List.mem_append_left _ ((held p).2 id ((old id h p).1 mem))

theorem Works.offer (o : Offer) (s : State) : Works [.port] s (s.offer o) := by
  refine .one ⟨?_, ⟨fun p ok => ?_, fun _ p => ?_, State.store_offer⟩, fun p => ?_⟩
  · rw [Bank.Frame, State.offer_eq]
    dsimp only
    split <;> rfl
  · rw [State.offer_port]
    exact ((Port.given_body ..).1 ok.body).settle _
  · rw [State.offer_port]
    exact (Port.given_body ..).2.1
  · rw [State.offer_port]
    exact (Port.given_body ..).2.2.1

theorem Works.fromEngine (os : List Offer) (s : State) :
    Works [.engineOut] s { s with pool := { s.pool with fromEngine := os } } := .one ⟨rfl, trivial⟩

theorem Works.fromMarkers (os : List Offer) (s : State) :
    Works [.markerOut] s { s with pool := { s.pool with fromMarkers := os } } := .one ⟨rfl, trivial⟩

theorem Works.takeOffer (src : RecordSource) (s : State) : Works [.engineOut, .markerOut, .port] s (s.takeOffer src) := by
  unfold State.takeOffer
  refine .ite (fun _ => ?_) fun _ => .refl
  cases src with
  | engine =>
    dsimp only
    split
    · exact .refl
    · exact ((Works.fromEngine _ s).mono (by simp)).trans ((offer _ _).mono (by simp))
  | markers =>
    dsimp only
    split
    · exact .refl
    · exact ((Works.fromMarkers _ s).mono (by simp)).trans ((offer _ _).mono (by simp))

end Sys2Proof.Machine

/-! PROOF. What the operations of the ports do, as actions on banks (09). -/

namespace Sys2Proof.Machine

/-! ## Replies -/

theorem moreItems_type (n : Nat) (bs : List Byte) : ∀ i ∈ moreItems n bs, i.type ≤ 2 := by
  induction n generalizing bs with
  | zero => exact fun i mem => absurd mem List.not_mem_nil
  | succ n ih =>
    cases bs with
    | nil => exact fun i mem => absurd mem List.not_mem_nil
    | cons b bs => exact List.forall_mem_cons.2 ⟨Nat.le_refl 2, ih _⟩

/-- The items of a reply are of the two reply types (11.6). -/
theorem replyItems_type (code : Byte) (r : Reply) : ∀ i ∈ replyItems code r, i.type ≤ 2 := by
  rw [replyItems]
  split
  · exact List.forall_mem_singleton.2 (show 1 ≤ 2 by decide)
  · exact List.forall_mem_cons.2 ⟨show 1 ≤ 2 by decide, moreItems_type _ _⟩

theorem updFirst_length (k : CommandCondition) (f : QueuedCommand → QueuedCommand) (cs : List QueuedCommand) :
    (updFirst k f cs).length = cs.length := by
  induction cs with
  | nil => rfl
  | cons c cs ih =>
    rw [updFirst]
    split
    · rfl
    · rw [List.length_cons, List.length_cons, ih]

theorem updFirst_forall {P : QueuedCommand → Prop} (k : CommandCondition) {f : QueuedCommand → QueuedCommand}
    (hf : ∀ c, P c → P (f c)) {cs : List QueuedCommand} (h : ∀ c ∈ cs, P c) : ∀ c ∈ updFirst k f cs, P c := by
  induction cs with
  | nil => exact h
  | cons c cs ih =>
    obtain ⟨first, rest⟩ := List.forall_mem_cons.1 h
    rw [updFirst]
    split
    · exact List.forall_mem_cons.2 ⟨hf c first, rest⟩
    · exact List.forall_mem_cons.2 ⟨first, ih rest⟩

/-- A port whose first command in a condition changes, with a reply of the two types. -/
theorem Port.BodyOk.updFirst {q : Port} (k : CommandCondition) {f : QueuedCommand → QueuedCommand}
    (hf : ∀ c : QueuedCommand, (∀ i ∈ c.reply, i.type ≤ 2) → ∀ i ∈ (f c).reply, i.type ≤ 2) (h : q.BodyOk) :
    ({ q with cmds := Sys2Proof.Machine.updFirst k f q.cmds } : Port).BodyOk :=
  { h with
    cmds := Nat.le_trans (Nat.le_of_eq (updFirst_length ..)) h.cmds
    replies := updFirst_forall k hf h.replies
    down := fun lost => by
      obtain ⟨cmds, rest⟩ := h.down lost
      exact ⟨by rw [cmds]; rfl, rest⟩ }

theorem Port.changes_updFirst {q : Port} (k : CommandCondition) {f : QueuedCommand → QueuedCommand} (x : PortCounters)
    (hf : ∀ c : QueuedCommand, (∀ i ∈ c.reply, i.type ≤ 2) → ∀ i ∈ (f c).reply, i.type ≤ 2) :
    q.Changes { q with counters := x, cmds := updFirst k f q.cmds } :=
  ⟨fun h => { Port.BodyOk.updFirst k hf h with }, id, rfl, rfl, rfl⟩

theorem QueuedCommand.answered_reply (r : Reply) (c : QueuedCommand) : ∀ i ∈ (c.answered r).reply, i.type ≤ 2 :=
  replyItems_type c.code r

theorem Port.changes_answer (r : Reply) (q : Port) : q.Changes (q.answer r) := by
  rw [Port.answer]
  split
  · exact ⟨fun h => { h with }, id, rfl, rfl, rfl⟩
  · exact Port.changes_updFirst _ q.counters fun c _ => c.answered_reply r

theorem Port.changes_updParts {f : QueuedCommand → QueuedCommand} (hf : ∀ c, (f c).reply = c.reply) (q : Port) :
    q.Changes (q.updParts f) := by
  rw [Port.updParts]
  split
  · exact ⟨fun h => { h with }, id, rfl, rfl, rfl⟩
  · exact Port.changes_updFirst _ q.counters fun c h => by rw [hf c]; exact h

/-! ## Leaving service -/

theorem Port.clearService_body {q r : Port} {state : PortState} (h : q.BodyOk) (out : state = .detached ∨ state = .down)
    (hr : r = { q.clearService with state := state, cmds := r.cmds, tx := r.tx, attention := r.attention, cause := r.cause
                                    orphans := r.orphans, linkLost := r.linkLost })
    (down : state = .down → r.cmds = [] ∧ r.tx = none ∧ r.attention = 0) (cmds : r.cmds.length ≤ commandQueueSize)
    (replies : r.RepliesOk) : r.BodyOk := by
  have serves : r.inService = false := by
    rw [hr]
    obtain rfl | rfl := out <;> rfl
  have held : r.state ≠ .held := by
    rw [hr]
    obtain rfl | rfl := out <;> exact nofun
  have state' : r.state = state := by rw [hr]
  have hold : r.holdTimer = none := by rw [hr]; rfl
  have beat : r.hbTimer = none := by rw [hr]; rfl
  have credits : r.credits = 0 := by rw [hr]; rfl
  have notices : r.notices = [] := by rw [hr]; rfl
  have pacing : r.pacing = q.pacing := by rw [hr]; rfl
  have queue : r.queue = [] := by rw [hr]; rfl
  have pending : r.hbPending = false := by rw [hr]; rfl
  exact {
    hold := by rw [hold]; exact iff_of_false Bool.false_ne_true held
    beat := by rw [beat, serves]; exact iff_of_false Bool.false_ne_true fun h => Bool.false_ne_true h.1
    out := fun _ => ⟨credits, queue, notices, pending⟩
    down := fun lost => down (state'.symm.trans lost)
    credits := by rw [credits]; exact Nat.zero_le _
    cmds := cmds
    kinds := by rw [notices]; exact List.nodup_nil
    repeats := by rw [notices]; exact fun n mem => absurd mem List.not_mem_nil
    holdLow := by rw [pacing]; exact h.holdLow
    holdHigh := by rw [pacing]; exact h.holdHigh
    replies := replies }

/-- A port in service goes on in STREAMING. -/
theorem Port.BodyOk.streams {q : Port} (serves : q.inService = true) (h : q.BodyOk) :
    ({ q with state := .streaming, holdTimer := none } : Port).BodyOk :=
  { h with
    hold := iff_of_false Bool.false_ne_true nofun
    beat := h.beat.trans (and_congr_left fun _ => iff_of_true serves rfl)
    out := nofun
    down := nofun }

/-- A command joins the queue of a port that has room for it (09 R174). -/
theorem Port.changes_receive {q : Port} {timer : Option Nat} {x : PortCounters} {c : QueuedCommand} (empty : c.reply = [])
    (room : q.cmds.length < commandQueueSize) (up : q.state ≠ .down) :
    q.Changes { q with silenceTimer := timer, counters := x, cmds := q.cmds ++ [c] } := by
  refine ⟨fun ok => { ok with cmds := ?_, down := fun down => absurd down up, replies := ?_ }, id, rfl, rfl, rfl⟩
  · exact Nat.le_trans (Nat.le_of_eq List.length_append) room
  · refine List.forall_mem_append.2 ⟨ok.replies, List.forall_mem_singleton.2 ?_⟩
    rw [empty]
    exact fun i mem => absurd mem List.not_mem_nil

theorem heartbeatTicks_isSome (x : Pacing) : x.heartbeatTicks.isSome ↔ x.heartbeat ≠ 0 := by
  rw [Pacing.heartbeatTicks]
  split
  · next off => exact iff_of_false Bool.false_ne_true fun on => on (Fin.ext off)
  · next on => exact iff_of_true rfl fun off => on (congrArg Fin.val off)

theorem Port.up_of_inService {q : Port} (serves : q.inService = true) : q.state ≠ .down := fun down => by
  rw [Port.inService, down] at serves
  exact Bool.false_ne_true serves

/-- A new heartbeat period restarts or stops the timer (08 R162). -/
theorem Port.repace_isSome {q : Port} {n : Pacing} {tick : Nat}
    (beat : q.hbTimer.isSome ↔ q.inService = true ∧ q.pacing.heartbeat ≠ 0) :
    (q.repace tick n).isSome ↔ q.inService = true ∧ n.heartbeat ≠ 0 := by
  rw [Port.repace]
  split
  · next same => rw [same]; exact beat
  · split
    · next serves =>
      rw [Option.isSome_map, heartbeatTicks_isSome, and_iff_right serves]
    · next out => exact iff_of_false Bool.false_ne_true fun h => out h.1

theorem set_get {α : Type} {n : Nat} (v : Vector α n) (p k : Fin n) (x : α) :
    (v.set p x)[k] = if k = p then x else v[k] := by
  rw [Fin.getElem_fin, Vector.getElem_set]
  exact if_congr (by rw [Fin.ext_iff, eq_comm]) rfl rfl

namespace Works

theorem clearPending (p : Fin 3) (s : State) :
    Works [.pending] s { s with markerPending := s.markerPending.set p (Vector.replicate 4 0) } := by
  refine .one ⟨rfl, fun k m h => ?_⟩
  rw [set_get]
  split
  · rw [replicate_get]
    exact Nat.zero_le _
  · exact h

theorem detachPort {p : Fin 3} (cause : DetachCause) {s : State} (up : s.ports[p].state ≠ .down) :
    Works [.port] s (s.detachPort p cause) :=
  releasePort (List.append_nil _).symm
    (fun h => Port.clearService_body (state := .detached) h (.inl rfl) rfl nofun h.cmds h.replies)
    (fun down => absurd down up) rfl rfl

theorem downPort (p : Fin 3) (s : State) : Works [.port, .pending] s (s.downPort p) := by
  have first : Works [.port] s ((s.releaseIds s.ports[p].queue).updPort p fun q =>
      { q.clearService with
        state := .down, cmds := [], orphans := q.orphans ++ q.cmds.filter QueuedCommand.handedOn, tx := none
        attention := 0, linkLost := false }) :=
    releasePort (List.append_nil _).symm
      (fun h => Port.clearService_body (state := .down) h (.inr rfl) rfl (fun _ => ⟨rfl, rfl, rfl⟩) (Nat.zero_le _)
        fun c mem => absurd mem List.not_mem_nil) (fun _ => rfl) rfl rfl
  exact (first.mono (by simp)).trans ((clearPending p _).mono (by simp))

theorem linkUp (p : Fin 3) (s : State) : Works [.port] s (s.linkUp p) := by
  refine .ite (fun h => ?_) fun _ => .refl
  rw [Bool.and_eq_true, Bool.and_eq_true, Bool.not_eq_true', beq_iff_eq] at h
  obtain ⟨⟨-, released⟩, down⟩ := h
  refine .one ⟨rfl, ⟨fun k ok => ?_, fun rstn => absurd rstn (by rw [released]; decide), ?_⟩, fun k => ?_⟩
  · rw [State.updPort_get]
    split
    · next same =>
      subst same
      have body := ok.body
      have out : s.ports[k].inService = false := by rw [Port.inService, down]; rfl
      exact Port.BodyOk.settle _ { body with
        hold := by rw [body.hold, down]; exact iff_of_false nofun nofun
        beat := by rw [body.beat, out]; exact iff_of_false (fun h => Bool.false_ne_true h.1) fun h => Bool.false_ne_true h.1
        out := fun _ => body.out out
        down := nofun }
    · exact ok
  · refine State.store_congr (fun k => ?_) (fun k => ?_) rfl rfl <;>
    · rw [State.updPort_get]
      split
      · next same => rw [same]; rfl
      · rfl
  · rw [State.updPort_get]
    split
    · next same => rw [same]; rfl
    · rfl

theorem linkLoss (p : Fin 3) (s : State) : Works [.port, .pending] s (s.linkLoss p) := by
  refine .ite (fun _ => .refl) fun _ => .ite (fun _ => ?_) fun _ => ?_
  · exact (downPort p s).trans ((updPort ⟨fun h => { h with }, id, rfl, rfl, rfl⟩).mono (by simp))
  · exact (updPort ⟨fun h => { h with }, id, rfl, rfl, rfl⟩).mono (by simp)

/-! ## Timers -/

theorem heartbeatExpiry (p : Fin 3) (s : State) : Works [.port] s (s.heartbeatExpiry p) := by
  refine .ite (fun h => updPort ⟨fun ok => ?_, id, rfl, rfl, rfl⟩) fun _ => .refl
  rw [Bool.and_eq_true] at h
  have timer : s.ports[p].hbTimer.isSome := by
    cases timer : s.ports[p].hbTimer with
    | none => rw [timer] at h; exact h.2
    | some n => rfl
  obtain ⟨serves, period⟩ := ok.beat.1 timer
  exact { ok with
    beat := by
      rw [Option.isSome_map, heartbeatTicks_isSome]
      exact iff_of_true period ⟨serves, period⟩
    out := fun (out : s.ports[p].inService = false) => absurd serves (by rw [out]; decide) }

theorem holdExpiry (p : Fin 3) (s : State) : Works [.port] s (s.holdExpiry p) := by
  refine .ite (fun h => updPort (Port.Changes.trans ?_ (Port.changes_notify ..))) fun _ => .refl
  rw [Bool.and_eq_true, Bool.and_eq_true, beq_iff_eq] at h
  obtain ⟨⟨-, held⟩, -⟩ := h
  exact ⟨fun ok => ok.streams (by rw [Port.inService, held]; rfl), fun down => absurd (held.symm.trans down) (by decide),
    rfl, rfl, rfl⟩

theorem silenceExpiry (p : Fin 3) (s : State) : Works [.port] s (s.silenceExpiry p) := by
  refine .ite (fun h => detachPort _ ?_) fun _ => .refl
  rw [Bool.and_eq_true, Bool.and_eq_true, beq_iff_eq] at h
  rw [h.1.2]
  decide

/-! ## Command intake -/

theorem receiveFrame (p : Fin 3) (bytes : List Byte) (s : State) : Works [.port] s (s.receiveFrame p bytes) := by
  refine .ite (fun h => updPort ?_) fun _ => .refl
  rw [Bool.and_eq_true, bne_iff_ne] at h
  dsimp only
  split
  · exact ⟨fun ok => { ok with }, id, rfl, rfl, rfl⟩
  · rw [Port.heard_eq]
    split
    · exact ⟨fun ok => { ok with }, id, rfl, rfl, rfl⟩
    · next room => exact Port.changes_receive rfl (Nat.lt_of_not_le room) h.2

theorem handOver (p : Fin 3) (s : State) : Works [.port] s (s.handOver p) := by
  refine .ite (fun _ => ?_) fun _ => .refl
  split
  · exact .refl
  · split
    · exact updPort (Port.changes_updFirst _ _ fun c _ => c.answered_reply _)
    · exact .ite (fun _ => updPort (Port.changes_updFirst _ _ fun c _ => c.answered_reply _))
        fun _ => updPort (Port.changes_updFirst _ _ fun c h => h)

/-! ## Transmission -/

end Works

theorem takeReply_spec {cs : List QueuedCommand} {i : Item} {rest : List QueuedCommand} (h : takeReply cs = some (i, rest)) :
    cs ≠ [] ∧ rest.length ≤ cs.length
      ∧ ((∀ c ∈ cs, ∀ i ∈ c.reply, i.type ≤ 2) → ∀ c ∈ rest, ∀ i ∈ c.reply, i.type ≤ 2) := by
  cases cs with
  | nil => cases h
  | cons c cs =>
    refine ⟨List.cons_ne_nil _ _, ?_⟩
    rw [takeReply] at h
    split at h
    · split at h
      · cases h
      · cases h
        exact ⟨Nat.le_succ _, fun all => (List.forall_mem_cons.1 all).2⟩
      · next x xs more reply =>
        cases h
        refine ⟨Nat.le_refl _, fun all => ?_⟩
        obtain ⟨first, others⟩ := List.forall_mem_cons.1 all
        refine List.forall_mem_cons.2 ⟨fun y mem => first y ?_, others⟩
        rw [reply]
        exact List.mem_cons_of_mem _ mem
    · cases h

/-- A port in STREAMING that takes an item against a credit. -/
theorem Port.BodyOk.spend {q : Port} {notices : List Notice} {beat : Bool} {queue : List Nat}
    (streams : q.state = .streaming) (sub : notices.Sublist q.notices) (h : q.BodyOk) :
    ({ q with notices := notices, hbPending := beat, queue := queue, credits := q.credits - 1 } : Port).BodyOk :=
  { h with
    credits := Nat.le_trans (Nat.sub_le ..) h.credits
    kinds := h.kinds.sublist (sub.map _)
    repeats := fun n mem => h.repeats n (sub.subset mem)
    out := fun (out : q.inService = false) => absurd out (by rw [Port.inService, streams]; exact nofun) }

theorem State.takeItem_works {p : Fin 3} {s t : State} {i : Item} (h : s.takeItem p = some (i, t)) :
    Works [.port] s t ∧ t.ports[p].state = s.ports[p].state := by
  rw [State.takeItem] at h
  split at h
  · next x cs reply =>
    cases h
    obtain ⟨some, short, replies⟩ := takeReply_spec reply
    refine ⟨.updPort ⟨fun ok => { ok with
      cmds := Nat.le_trans short ok.cmds, replies := replies ok.replies
      down := fun down => absurd (ok.down down).1 some }, id, rfl, rfl, rfl⟩, by rw [State.updPort_same]; rfl⟩
  · split at h
    · next opened =>
      obtain ⟨streams, -⟩ := opened
      have up : s.ports[p].state = .down → False := fun down => absurd (streams.symm.trans down) (by decide)
      split at h
      · next n ns notices =>
        cases h
        refine ⟨.updPort ⟨fun ok => ok.spend streams ?_, id, rfl, rfl, rfl⟩, by rw [State.updPort_same]; rfl⟩
        rw [notices]
        exact List.sublist_cons_self n ns
      · next notices =>
        split at h
        · cases h
          exact ⟨.updPort ⟨fun ok => ok.spend streams (List.Sublist.refl _), id, rfl, rfl, rfl⟩,
            by rw [State.updPort_same]; rfl⟩
        · split at h
          · cases h
          · next id ids queue =>
            obtain ⟨r, -, same⟩ := Option.map_eq_some_iff.1 h
            cases same
            refine ⟨.releasePort (ids := [id]) ?_ (fun ok => ok.spend streams (List.Sublist.refl _)) (fun h => h) rfl rfl,
              by rw [State.updPort_same]; rfl⟩
            exact queue
    · cases h

theorem State.takeItems_works (p : Fin 3) (n : Nat) (s : State) :
    Works [.port] s (s.takeItems p n).2 ∧ (s.takeItems p n).2.ports[p].state = s.ports[p].state := by
  induction n generalizing s with
  | zero => exact ⟨.refl, rfl⟩
  | succ n ih =>
    rw [State.takeItems]
    split
    · exact ⟨.refl, rfl⟩
    · next i t taken =>
      obtain ⟨first, state⟩ := State.takeItem_works taken
      obtain ⟨rest, states⟩ := ih t
      exact ⟨first.trans rest, states.trans state⟩

namespace Works

theorem startLinkFrame (p : Fin 3) (s : State) : Works [.port] s (s.startLinkFrame p) := by
  refine .ite (fun h => ?_) fun _ => .refl
  rw [Bool.and_eq_true, Bool.and_eq_true, bne_iff_ne] at h
  obtain ⟨items, state⟩ := s.takeItems_works p 8
  refine .ite (fun _ => .refl) fun _ => items.trans (updPort ⟨fun ok => { ok with
    down := fun down => absurd (state.symm.trans down) h.1.2 }, id, rfl, rfl, rfl⟩)

theorem endLinkFrame (p : Fin 3) (s : State) : Works [.port] s (s.endLinkFrame p) := by
  rw [State.endLinkFrame]
  split
  · exact .refl
  · exact .ite (fun _ => updPort ⟨fun ok => { ok with
      down := fun down => ⟨(ok.down down).1, rfl, (ok.down down).2.2⟩ }, id, rfl, rfl, rfl⟩) fun _ => .refl

/-! ## The port's own commands -/

theorem attach (p : Fin 3) (n : Nat) (small : n ≤ maxCredits) (s : State) : Works [.port] s (s.attach p n).1 := by
  rw [State.attach]
  split
  · next detached =>
    dsimp only
    refine updPort ⟨fun ok => ?_, fun down => absurd (detached.symm.trans down) (by decide), rfl, rfl, rfl⟩
    have out : s.ports[p].inService = false := by rw [Port.inService, detached]; rfl
    exact { ok with
      hold := by rw [ok.hold, detached]; exact iff_of_false nofun nofun
      beat := by
        rw [Option.isSome_map, heartbeatTicks_isSome]
        exact (and_iff_right rfl).symm
      out := nofun
      down := nofun
      credits := small }
  · exact .refl

theorem detach (p : Fin 3) (s : State) : Works [.port] s (s.detach p).1 := by
  rw [State.detach]
  split
  · next serves => exact detachPort _ (Port.up_of_inService serves)
  · exact .refl

theorem hold (p : Fin 3) (s : State) : Works [.port] s (s.hold p).1 := by
  rw [State.hold]
  split
  · next streams =>
    dsimp only
    have serves : s.ports[p].inService = true := by rw [Port.inService, streams]; rfl
    exact updPort ⟨fun ok => { ok with
      hold := iff_of_true rfl rfl
      beat := ok.beat.trans (and_congr_left fun _ => iff_of_true serves rfl)
      out := nofun
      down := nofun }, fun down => absurd (streams.symm.trans down) (by decide), rfl, rfl, rfl⟩
  · exact .refl

theorem release (p : Fin 3) (s : State) : Works [.port] s (s.release p).1 := by
  rw [State.release]
  split
  · next held =>
    dsimp only
    exact updPort ⟨fun ok => ok.streams (by rw [Port.inService, held]; rfl),
      fun down => absurd (held.symm.trans down) (by decide), rfl, rfl, rfl⟩
  · exact .refl

theorem grantCredits (p : Fin 3) (n : Nat) (s : State) : Works [.port] s (s.grantCredits p n).1 := by
  rw [State.grantCredits]
  split
  · next serves =>
    dsimp only
    exact updPort ⟨fun ok => { ok with
      credits := Nat.min_le_right ..
      out := fun (out : s.ports[p].inService = false) => absurd serves (by rw [out]; decide) }, id, rfl, rfl, rfl⟩
  · exact .refl

theorem setPacing (p : Fin 3) (beat hold silence : Nat) (s : State) : Works [.port] s (s.setPacing p beat hold silence).1 := by
  rw [State.setPacing]
  split
  · next h si _ _ =>
    dsimp only
    obtain ⟨low, high⟩ := clampNat_bounds hold (show 1 ≤ 1000 by decide)
    refine updPort ⟨fun ok => { ok with holdLow := low, holdHigh := high, beat := ?_ }, id, rfl, rfl, rfl⟩
    exact Port.repace_isSome ok.beat
  · exact .refl

theorem readStatus (p : Fin 3) (s : State) : Works [.port] s (s.readStatus p).1 := by
  change Works [.port] s (s.updPort p fun q => { q with attention := 0 })
  exact updPort ⟨fun ok => { ok with down := fun down => ⟨(ok.down down).1, (ok.down down).2.1, rfl⟩ }, id, rfl, rfl, rfl⟩

end Works

/-! ## Quotas (08 R152, R153) -/

theorem State.commitmentSum_change {s t : State} {p : Fin 3}
    (others : ∀ k : Fin 3, k ≠ p → t.ports[k].commitment = s.ports[k].commitment) :
    t.commitmentSum = t.ports[p].commitment + s.otherCommitments p := by
  rw [State.otherCommitments, State.commitmentSum, State.commitmentSum]
  match p, others with
  | 0, others =>
    have one : t.ports[1].commitment = s.ports[1].commitment := others 1 (by decide)
    have two : t.ports[2].commitment = s.ports[2].commitment := others 2 (by decide)
    change _ = t.ports[0].commitment + (_ - s.ports[0].commitment)
    omega
  | 1, others =>
    have zero : t.ports[0].commitment = s.ports[0].commitment := others 0 (by decide)
    have two : t.ports[2].commitment = s.ports[2].commitment := others 2 (by decide)
    change _ = t.ports[1].commitment + (_ - s.ports[1].commitment)
    omega
  | 2, others =>
    have zero : t.ports[0].commitment = s.ports[0].commitment := others 0 (by decide)
    have one : t.ports[1].commitment = s.ports[1].commitment := others 1 (by decide)
    change _ = t.ports[2].commitment + (_ - s.ports[2].commitment)
    omega

theorem roundQuota_ok (n : Nat) : 256 ≤ roundQuota n ∧ roundQuota n % 256 = 0 := by
  rw [roundQuota, clampNat]
  omega

namespace Works

/-- A quota for which the store has room. -/
theorem giveQuota {p : Fin 3} {n : Nat} {s : State} (range : 256 ≤ n ∧ n % 256 = 0)
    (room : s.commitmentSum ≤ Config.poolSize →
      max n s.ports[p].queue.length + s.otherCommitments p ≤ Config.poolSize) :
    Works [.port] s (s.updPort p fun q => { q with quota := n }) := by
  have get (k : Fin 3) : (s.updPort p fun q => { q with quota := n }).ports[k] =
      if k = p then ({ s.ports[p] with quota := n } : Port).settle s.tick else s.ports[k] := State.updPort_get ..
  refine .one ⟨rfl, ⟨fun k ok => ?_, fun _ k down => ?_, fun quotas pool => ⟨⟨fun k => ?_, ?_⟩, ?_⟩⟩, fun k => ?_⟩
  · rw [get]
    split
    · next same => exact Port.BodyOk.settle _ { (same ▸ ok).body with }
    · exact ok
  · rw [get]
    split
    · next same => rw [same] at down; exact down
    · exact down
  · rw [get]
    split
    · exact range
    · exact quotas.1 k
  · rw [State.commitmentSum_change (s := s) (p := p) fun k other => by rw [get, if_neg other], get, if_pos rfl]
    exact room quotas.2
  · have queues (k : Fin 3) : (s.updPort p fun q => { q with quota := n }).ports[k].queue = s.ports[k].queue := by
      rw [get]
      split
      · next same => rw [same]; rfl
      · rfl
    obtain ⟨sorted, live, held⟩ := pool
    refine ⟨sorted, fun e mem => ?_, fun k => ?_⟩
    · have same : (s.updPort p fun q => { q with quota := n }).holders e.id = s.holders e.id := by
        simp only [State.holders, queues]
      rw [same]
      exact live e mem
    · rw [queues]
      exact held k
  · rw [get]
    split
    · next same => rw [same]; rfl
    · rfl

theorem setQuota (p : Fin 3) (n : Nat) (s : State) : Works [.port] s (s.setQuota p n).1 := by
  rw [State.setQuota]
  dsimp only
  split
  · exact .refl
  · next room => exact giveQuota (roundQuota_ok n) fun _ => Nat.le_of_not_lt room

theorem restoreQuota (p : Fin 3) (s : State) : Works [.port] s (s.restoreQuota p) := by
  rw [State.restoreQuota]
  split
  · next room =>
    refine giveQuota (by decide) fun full => ?_
    have sum := State.commitment_add_others p s
    have queue : s.ports[p].queue.length ≤ s.ports[p].commitment := Nat.le_max_right ..
    omega
  · exact .refl

end Works

end Sys2Proof.Machine

/-! PROOF. What the events of the counter and its controller keep (01 R1, R2, R17, R19; 02 R25). -/

namespace Sys2Proof.Machine

/-! ## The value (01 R1) -/

/-- A value in its range. -/
def Timescale.InRange (t : Timescale) : Prop :=
  t.sec ≤ Config.maxSec ∧ t.ns < Config.nsPerSec ∧ t.frac < 2 ^ 32 ∧ (t.excess ≠ 0 → t.sec = Config.maxSec)

theorem Timescale.put_inRange {sec w : Nat} (t : Timescale) (hs : sec ≤ Config.maxSec) (hw : w < Config.unitsPerSec) :
    (t.put sec w).InRange := by
  refine ⟨hs, ?_, Nat.mod_lt _ (by decide), fun h => absurd rfl h⟩
  have units : Config.unitsPerSec = Config.nsPerSec * 2 ^ 32 := by decide
  exact Nat.div_lt_of_lt_mul (by rw [Nat.mul_comm, ← units]; exact hw)

theorem Timescale.atMax_inRange (n : Nat) (t : Timescale) : (t.atMax n).InRange :=
  ⟨Nat.le_refl _, show 999999999 < Config.nsPerSec by decide, show 2 ^ 32 - 1 < 2 ^ 32 by decide, fun _ => rfl⟩

theorem Timescale.InRange.within_lt {t : Timescale} (h : t.InRange) : t.within < Config.unitsPerSec := by
  obtain ⟨-, ns, frac, -⟩ := h
  have units : Config.unitsPerSec = Config.nsPerSec * 2 ^ 32 := by decide
  rw [Timescale.within, units]
  omega

theorem Timescale.addTick_inRange {t : Timescale} (h : t.InRange) (inc : t.inc < Config.unitsPerSec) : t.addTick.InRange := by
  have within := h.within_lt
  obtain ⟨below, add, -⟩ | ⟨-, -, add, -⟩ | ⟨past, early, add, -⟩ := t.addTick_cases <;> rw [add]
  · exact t.put_inRange h.1 below
  · exact t.atMax_inRange _
  · exact t.put_inRange early (by omega)

theorem Timescale.reincrement_inRange {t : Timescale} {inc : Nat} (h : t.InRange) (small : inc < Config.unitsPerSec) :
    (t.reincrement inc).InRange := by
  have within := h.within_lt
  obtain ⟨sec, -, -, excess⟩ := id h
  rw [Timescale.reincrement]
  split
  · exact h
  split
  · next neg =>
    split
    · exact Timescale.put_inRange _ (Nat.zero_le _) (by decide)
    · exact Timescale.put_inRange _ (by omega) (by omega)
  split
  · next below => exact Timescale.put_inRange _ sec (by omega)
  split
  · exact Timescale.atMax_inRange _ _
  · next early =>
    have none : t.excess = 0 := by
      by_contra some
      exact early (Nat.le_of_eq (excess some).symm)
    have reach : t.reach inc = (t.within : Int) + ((inc : Int) - t.inc) := by rw [Timescale.reach, none, Nat.add_zero]
    exact Timescale.put_inRange _ (by omega) (by omega)

theorem Timescale.shift_inRange {t : Timescale} {d : Int} (h : t.InRange) (small : d < Config.unitsPerSec) :
    (t.shift d).InRange := by
  have within := h.within_lt
  rw [Timescale.shift]
  split
  · next neg =>
    split
    · exact Timescale.put_inRange _ (Nat.zero_le _) (by decide)
    · exact Timescale.put_inRange _ (by have := h.1; omega) (by omega)
  split
  · exact Timescale.put_inRange _ (Nat.min_le_right ..) (by omega)
  · next short =>
    rw [Timescale.shiftCarries, decide_eq_true_eq] at short
    exact Timescale.put_inRange _ h.1 (by omega)

theorem Timescale.relabel_inRange {t : Timescale} (q label : Nat) (h : t.InRange) : (t.relabel q label).InRange := by
  rw [Timescale.relabel]
  split
  · exact Timescale.put_inRange _ (Nat.zero_le _) (by decide)
  · exact ⟨Nat.min_le_right .., h.2.1, h.2.2.1, fun no => absurd rfl no⟩

theorem Timescale.relabel_inc (q label : Nat) (t : Timescale) : (t.relabel q label).inc = t.inc := by
  rw [Timescale.relabel]
  split <;> rfl

theorem increment_lt (r l : Int) : increment r l < Config.unitsPerSec := by
  have bound := (increment_nearest (r := r) (l := l) rfl).2.2
  have units : Config.unitsPerSec = 4294967296000000000 := by decide
  omega

theorem State.valueOk_iff (s : State) :
    s.ValueOk ↔ s.time.InRange ∧ s.time.inc = increment s.disc.rate s.disc.slew := by
  rw [State.ValueOk, Timescale.InRange]
  constructor
  · rintro ⟨sec, ns, frac, inc, excess⟩
    exact ⟨⟨sec, ns, frac, excess⟩, inc⟩
  · rintro ⟨⟨sec, ns, frac, excess⟩, inc⟩
    exact ⟨sec, ns, frac, inc, excess⟩

/-- A reading of a value in its range is in its range (01 R6). -/
theorem State.reading_ok {s : State} (h : s.ValueOk) : s.reading.Ok := by
  obtain ⟨-, ns, -⟩ := h
  rw [State.reading]
  dsimp only
  split
  · next sub => exact ⟨ns, sub⟩
  split
  · next more => exact ⟨more, show 0 < 256 by decide⟩
  split
  · exact ⟨show 0 < Config.nsPerSec by decide, show 0 < 256 by decide⟩
  · exact ⟨show 999999999 < Config.nsPerSec by decide, show 255 < 256 by decide⟩

/-- The counter after the increment of new terms (01 R3). -/
theorem State.setIncrement_value {s u : State} {inc : Nat} (h : s.ValueOk) (time : u.time = (s.setIncrement inc).time)
    (terms : inc = increment u.disc.rate u.disc.slew) : u.ValueOk := by
  rw [State.valueOk_iff] at h ⊢
  rw [time]
  refine ⟨Timescale.reincrement_inRange h.1 (by rw [terms]; exact increment_lt ..), ?_⟩
  rw [← terms]
  exact Timescale.reincrement_inc ..

/-- An error that `judgePulse` gives is no less than half a second below (02 R27). -/
theorem judgePulse_ex (st : Stamp) : -128000000000 ≤ (judgePulse st).ex := by
  rw [judgePulse]
  split
  · dsimp only
    omega
  · have : (Config.nsPerSec : Int) = 1000000000 := by decide
    dsimp only
    omega

/-- The counter after a correction (01 R11). -/
theorem State.correct_inRange {s : State} {ex : Int} (h : s.ValueOk) (low : -128000000000 ≤ ex) :
    (s.correct ex).time.InRange ∧ (s.correct ex).time.inc = increment s.disc.rate 0 := by
  rw [State.valueOk_iff] at h
  have units : (Config.unitsPerSec : Int) = 4294967296000000000 := by decide
  have shifted : ((s.time.reincrement (increment s.disc.rate 0)).shift (-ex * 2 ^ 24)).InRange :=
    Timescale.shift_inRange (Timescale.reincrement_inRange h.1 (increment_lt ..)) (by omega)
  refine ⟨shifted, ?_⟩
  exact (Timescale.shift_inc_epoch_excess _ _).1.trans (Timescale.reincrement_inc ..)

end Sys2Proof.Machine

/-! PROOF. Events of the controller as actions on banks (02). -/

namespace Sys2Proof.Machine

/-! ## The notices of an event -/

/-- A port that has changed and is good again. -/
def Port.Moves (q r : Port) : Prop := q.Changes r ∧ (q.Ok → r.Ok)

theorem Port.Moves.refl (q : Port) : q.Moves q := ⟨.refl q, id⟩

theorem Port.Moves.trans {q r x : Port} (qr : q.Moves r) (rx : r.Moves x) : q.Moves x :=
  ⟨qr.1.trans rx.1, rx.2 ∘ qr.2⟩

theorem Port.Changes.moves {q r : Port} (n : Nat) (h : q.Changes r) : q.Moves (r.settle n) :=
  ⟨Works.changes_settle n h, fun ok => (h.body ok.body).settle n⟩

theorem State.sweep_notifyAll_moves (bs : List NoticeBody) (s : State) (p : Fin 3) :
    s.ports[p].Moves (sweep State.notifyAll bs s).ports[p] := by
  induction bs generalizing s with
  | nil => exact .refl _
  | cons b bs ih =>
    refine Port.Moves.trans ?_ (ih _)
    rw [State.notifyAll_get]
    exact (Port.changes_notify b _).moves _

theorem State.raised_moves (s u : State) (bs : List NoticeBody) (p : Fin 3) :
    s.ports[p].Moves (s.raised u bs).ports[p] := by
  by_cases changed : s.Changed u
  · by_cases first : s.disc.qualityAt.map Prod.fst ≠ some s.tick
    · rw [State.raised_new changed first]
      exact s.sweep_notifyAll_moves _ p
    · obtain ⟨⟨n, before⟩, second, now⟩ := Option.map_eq_some_iff.1 (not_not.1 first)
      rw [State.raised_again changed second now, State.mapPorts_get]
      exact (s.sweep_notifyAll_moves bs p).trans ((Port.changes_amend _ _).moves _)
  · rw [State.raised_same changed]
    exact s.sweep_notifyAll_moves bs p

/-! ## An event (02 R52, R54; 01 R15) -/

theorem State.ClockOk.congr {s t : State} (time : t.time = s.time) (disc : t.disc = s.disc)
    (invalid : t.mon.invalid = s.mon.invalid) (h : s.ClockOk) : t.ClockOk := by
  rw [State.ClockOk, State.ValueOk, State.DisciplineOk, State.InvalidOk, time, disc, invalid]
  exact h

theorem State.SecpOk.congr {s t : State} (fell : t.secpFell = s.secpFell) (secp : t.secp = s.secp) (tick : t.tick = s.tick)
    (ns : t.time.ns = s.time.ns) (width : t.disc.settings.secpNs = s.disc.settings.secpNs) (h : s.SecpOk) : t.SecpOk := by
  rw [State.SecpOk, fell, secp, tick, ns, width]
  exact h

/-- A change of the counter and of the controller with its notices, after which the readings of the tick follow. -/
theorem Works.told {s u : State} (bs : List NoticeBody)
    (whole : u = { s.rereadAs u.reading with
      time := u.time, rolled := u.rolled, disc := u.disc, secp := u.secp, secpRise := u.secpRise, secpFell := u.secpFell
      ports := ((s.raised u bs).rereadAs u.reading).ports })
    (clock : s.ClockOk → u.ClockOk) (secp : s.SecpOk → u.SecpOk) : Works [.clock, .port, .reading] s u := by
  obtain ⟨c, hc⟩ : ∃ c : State, c = { s with
      time := u.time, rolled := u.rolled, disc := u.disc, secp := u.secp, secpRise := u.secpRise
      secpFell := u.secpFell } := ⟨_, rfl⟩
  have mon : u.mon = s.mon := (congrArg State.mon whole :)
  have tick : u.tick = s.tick := (congrArg State.tick whole :)
  have toClock : Works [.clock] s c := by
    refine .one ⟨by rw [hc]; rfl, fun h => ?_, fun h => ?_⟩
    · exact (clock h).congr (by rw [hc]) (by rw [hc]) (by rw [hc, mon])
    · exact (secp h).congr (by rw [hc]) (by rw [hc]) (by rw [hc, tick]) (by rw [hc]) (by rw [hc])
  obtain ⟨d, hd⟩ : ∃ d : State, d = { c with ports := (s.raised u bs).ports } := ⟨_, rfl⟩
  have toPorts : Works [.port] c d := by
    have moves (p : Fin 3) : c.ports[p].Moves d.ports[p] := by
      rw [hd, hc]
      exact s.raised_moves u bs p
    exact .ports (by rw [hd]) (fun p => (moves p).1) fun p => (moves p).2
  have toReading : Works [.reading] d u := by
    have reread : u = d.rereadAs u.reading := by
      refine whole.trans ?_
      rw [State.rereadAs_ports_congr (s := d) u.reading (by rw [hd]) (by rw [hd, hc]; exact State.raised_tick u), hd, hc]
      rfl
    refine .one ⟨?_, u.reading, reread, fun h => State.reading_ok (h.congr (by rw [hd, hc]) (by rw [hd, hc]) ?_).1⟩
    · rw [Bank.Frame, reread]
      rfl
    · rw [mon, hd, hc]
  exact ((toClock.mono (by simp)).trans (toPorts.mono (by simp))).trans (toReading.mono (by simp))

/-- What an event leaves of the fall of SECP (01 R19; log entry 18). -/
theorem State.IsEvent.secpOk {s u : State} {bs : List NoticeBody} (event : s.IsEvent u bs)
    (settings : u.disc.settings = s.disc.settings) (h : s.SecpOk) : u.SecpOk := by
  have tick : u.tick = s.tick := (congrArg State.tick event.1 :)
  have secp : u.secp = (s.secp || decide (s.secpBack u)) := (congrArg State.secp event.1 :)
  have fell : u.secpFell = if s.secpBack u then none else s.secpFell := (congrArg State.secpFell event.1 :)
  intro f mem
  rw [fell] at mem
  split at mem
  · exact absurd mem nofun
  · next back =>
    obtain ⟨low, past, now⟩ := h f mem
    rw [secp, tick, settings, low, decide_eq_false back]
    refine ⟨rfl, past, fun same => ⟨Nat.le_of_not_lt fun below => back ⟨f, mem, same, below⟩, (now same).2⟩⟩

theorem Works.event {s u : State} {bs : List NoticeBody} (event : s.IsEvent u bs)
    (settings : u.disc.settings = s.disc.settings) (clock : s.ClockOk → u.ClockOk) : Works [.clock, .port, .reading] s u := by
  have rise : u.secpRise = s.secpRise := (congrArg State.secpRise event.1 :)
  have secp := congrArg State.secp event.1
  have fell := congrArg State.secpFell event.1
  refine .told bs (event.1.trans ?_) clock (event.secpOk settings)
  rw [secp, fell, rise]
  rfl

/-! ## What each event keeps -/

theorem State.ClockOk.valid {s : State} (h : s.ClockOk) (active : s.disc.state ≠ .unset ∨ s.disc.label ≠ none) :
    s.mon.invalid = false := by
  obtain ⟨-, -, -, invalid⟩ := h
  refine Bool.eq_false_iff.2 fun yes => ?_
  obtain ⟨unset, label⟩ := invalid yes
  exact active.elim (absurd unset) (absurd label)

section
variable {s u : State} {d : Discipline} {bs : List NoticeBody}

/-- The counter and a controller that are good after an event of a core whose INVALID is clear. -/
theorem State.clockOk_of (disc : u.disc = { d with qualityAt := u.disc.qualityAt }) (event : s.IsEvent u bs)
    (valid : s.mon.invalid = false) (value : u.ValueOk) (terms : d.TermsOk) (state : d.StateOk) : u.ClockOk := by
  have mon : u.mon = s.mon := (congrArg State.mon event.1 :)
  refine ⟨value, ?_, ?_, fun invalid => ?_⟩
  · rw [disc]
    exact terms
  · rw [disc]
    exact state
  · rw [mon, valid] at invalid
    exact absurd invalid Bool.false_ne_true

theorem Discipline.settling_stateOk {good : Nat} (i : Deadline) (small : good ≤ 16) (d : Discipline) :
    (d.settling good i).StateOk :=
  ⟨nofun, iff_of_false Bool.false_ne_true nofun, iff_of_false Bool.false_ne_true nofun, iff_of_true rfl rfl, nofun,
    small, Nat.zero_le _, Nat.zero_le _, Nat.zero_le _⟩

theorem Discipline.updated_termsOk {d : Discipline} (e : Int) (h : d.TermsOk) : (d.updated e).TermsOk := by
  obtain ⟨-, -, settings⟩ := h
  refine ⟨?_, ?_, settings⟩ <;> dsimp only <;> omega

theorem State.UpdatesInto.clockOk {q : Pulse} {good : Nat} (updates : s.UpdatesInto u q good bs) (small : good ≤ 16)
    (active : s.disc.state ≠ .unset) (h : s.ClockOk) : u.ClockOk := by
  obtain ⟨disc, counts, event⟩ := updates
  exact State.clockOk_of disc event (h.valid (.inl active)) (State.setIncrement_value h.1 counts.1 rfl)
    (Discipline.updated_termsOk q.e h.2.1) (Discipline.settling_stateOk _ small _)

theorem State.UpdatesInto.works {q : Pulse} {good : Nat} (updates : s.UpdatesInto u q good bs) (small : good ≤ 16)
    (active : s.disc.state ≠ .unset) : Works [.clock, .port, .reading] s u :=
  .event updates.2.2 (by rw [updates.1]) (State.UpdatesInto.clockOk updates small active)

theorem State.StepsInto.works {q : Pulse} (steps : s.StepsInto u q bs) (low : -128000000000 ≤ q.ex)
    (active : s.disc.state ≠ .unset) : Works [.clock, .port, .reading] s u := by
  obtain ⟨disc, time, -, event⟩ := steps
  refine .event event (by rw [disc]) fun h => ?_
  refine State.clockOk_of disc event (h.valid (.inl active)) ?_ ⟨h.2.1.1, Nat.zero_le _, h.2.1.2.2⟩
    (Discipline.settling_stateOk _ (Nat.zero_le _) _)
  obtain ⟨range, inc⟩ := State.correct_inRange h.1 low
  rw [State.valueOk_iff, time, disc]
  exact ⟨range, inc⟩

/-- A pending label is carried out. -/
theorem Works.labelPulse {p : Pulse} {l : PendingLabel} (low : -128000000000 ≤ p.ex) (label : s.disc.label = some l) :
    Works [.clock, .port, .reading] s (s.labelPulse p l.value).reread := by
  obtain ⟨disc, time, -, event⟩ := State.labelPulse_event (s := s) (p := p) l.value rfl
  refine .event event (by rw [disc]) fun h => ?_
  refine State.clockOk_of disc event (h.valid (.inr (by rw [label]; exact nofun))) ?_ ⟨h.2.1.1, Nat.zero_le _, h.2.1.2.2⟩
    (Discipline.settling_stateOk _ (by decide) _)
  obtain ⟨range, inc⟩ := State.correct_inRange h.1 low
  rw [State.valueOk_iff, time, disc, Timescale.relabel_inc]
  exact ⟨Timescale.relabel_inRange _ _ range, inc⟩

/-- A fault that leads to a good controller. -/
theorem State.Faults.works {kind : ReferenceKind} {pulse : Option (Int × Stamp)} (faults : s.Faults u d kind pulse)
    (rate : d.rate = s.disc.rate) (settings : d.settings = s.disc.settings) (active : s.disc.state ≠ .unset)
    (state : s.disc.StateOk → ({ d with slew := 0 } : Discipline).StateOk) : Works [.clock, .port, .reading] s u := by
  obtain ⟨disc, counts, event⟩ := faults
  refine .event event (by rw [disc]; exact settings) fun h => ?_
  obtain ⟨value, ⟨rateOk, -, settingsOk⟩, stateOk, -⟩ := id h
  refine State.clockOk_of (d := { d with slew := 0 }) disc event (h.valid (.inl active))
    (State.setIncrement_value value counts.1 ?_) ⟨?_, Nat.zero_le _, ?_⟩ (state stateOk)
  · rw [disc, ← rate]
  · dsimp only
    rw [rate]
    exact rateOk
  · dsimp only
    rw [settings]
    exact settingsOk

/-- An event of the controller alone: the counter stays (02 R42). -/
theorem Works.disc_event (bs : List NoticeBody) (note : d.qualityAt = s.disc.qualityAt) (same : d.state = s.disc.state)
    (suspect : d.suspect = s.disc.suspect) (settings : d.settings = s.disc.settings) (rate : d.rate = s.disc.rate)
    (slew : d.slew = s.disc.slew) (label : d.label = s.disc.label) (state : s.ClockOk → d.StateOk) :
    Works [.clock, .port, .reading] s (s.led s.time s.rolled d bs).reread := by
  have quiet : s.led s.time s.rolled d bs = (s.led s.time s.rolled d bs).raiseQuality s.disc.state s.disc.suspect :=
    (State.raiseQuality_same ⟨same, suspect⟩).symm
  obtain ⟨disc, time, -, event⟩ := State.isEvent_of_led quiet rfl note
  refine .event event (by rw [disc]; exact settings) fun h => ?_
  have mon : (s.led s.time s.rolled d bs).reread.mon = s.mon := rfl
  obtain ⟨value, ⟨rateOk, slewOk, settingsOk⟩, -, invalid⟩ := id h
  rw [State.valueOk_iff] at value
  rw [State.ClockOk, State.valueOk_iff, State.DisciplineOk, State.InvalidOk, mon, time, disc]
  refine ⟨⟨value.1, ?_⟩, ⟨?_, ?_, ?_⟩, state h, fun yes => ?_⟩
  · dsimp only
    rw [rate, slew]
    exact value.2
  · dsimp only
    rw [rate]
    exact rateOk
  · dsimp only
    rw [slew, settings]
    exact slewOk
  · dsimp only
    rw [settings]
    exact settingsOk
  · dsimp only
    rw [same, label]
    exact invalid yes

/-- Nothing changes but what follows the readings of the tick. -/
theorem Works.reread (s : State) : Works [.clock, .port, .reading] s s.reread :=
  .disc_event (s := s) (d := s.disc) [] rfl rfl rfl rfl rfl rfl rfl fun h => h.2.2.1

end

/-! ## The states after a fault -/

section
variable {d : Discipline}

theorem Discipline.settlingFaulted_keeps (d : Discipline) :
    d.settlingFaulted.rate = d.rate ∧ d.settlingFaulted.settings = d.settings := by
  rw [Discipline.settlingFaulted]
  split <;> exact ⟨rfl, rfl⟩

theorem Discipline.lockedFaulted_keeps (d : Discipline) (epoch : BitVec 8) :
    (d.lockedFaulted epoch).rate = d.rate ∧ (d.lockedFaulted epoch).settings = d.settings := by
  rw [Discipline.lockedFaulted]
  split <;> exact ⟨rfl, rfl⟩

theorem Discipline.settlingFaulted_stateOk (state : d.state = .settling) (h : d.StateOk) :
    ({ d.settlingFaulted with slew := 0 } : Discipline).StateOk := by
  obtain ⟨-, window, expected, silence, suspect, good, -, reacquired, age⟩ := h
  have open1 : ¬(d.state = .locked ∨ d.state = .holdover) := by rw [state]; exact nofun
  by_cases first : d.faults = 0
  · rw [Discipline.settlingFaulted, if_pos first]
    exact ⟨fun _ => rfl, window, expected, silence, suspect, good, Nat.le_refl 1, reacquired, age⟩
  · rw [Discipline.settlingFaulted, if_neg first]
    refine ⟨fun _ => rfl, ?_, ?_, iff_of_false Bool.false_ne_true nofun, fun yes => ?_, Nat.zero_le _, Nat.zero_le _,
      reacquired, age⟩
    · exact (window.trans (iff_false_intro open1)).trans (iff_of_false id nofun)
    · exact (expected.trans (iff_false_intro open1)).trans (iff_of_false id nofun)
    · exact absurd (state.symm.trans (suspect yes)) (by decide)

theorem Discipline.lockedFaulted_stateOk (epoch : BitVec 8) (state : d.state = .locked) (h : d.StateOk) :
    ({ d.lockedFaulted epoch with slew := 0 } : Discipline).StateOk := by
  obtain ⟨-, window, expected, silence, -, good, faults, reacquired, age⟩ := h
  by_cases first : d.suspect = false
  · rw [Discipline.lockedFaulted, if_pos first]
    exact ⟨fun _ => rfl, window, expected, silence, fun _ => state, good, faults, reacquired, age⟩
  · rw [Discipline.lockedFaulted, if_neg first]
    have known : d.expected.isSome := expected.2 (.inl state)
    refine ⟨fun _ => rfl, iff_of_true ?_ (.inr rfl), iff_of_true known (.inr rfl), ?_, nofun, good, faults, Nat.zero_le _,
      Nat.zero_le _⟩
    · rw [Option.isSome_map]
      exact known
    · exact silence.trans (iff_of_false (by rw [state]; exact nofun) nofun)

theorem Discipline.expecting_stateOk (sec k : Nat) (epoch : BitVec 8) (state : d.state = .locked ∨ d.state = .holdover)
    (h : d.StateOk) : (d.expecting sec k epoch).StateOk := by
  obtain ⟨slew, -, -, rest⟩ := h
  exact ⟨slew, iff_of_true rfl state, iff_of_true rfl state, rest⟩

end

namespace Works
variable {s : State} {p : Pulse}

theorem acquire {good : Nat} (small : good ≤ 16) (done : Bool) (low : -128000000000 ≤ p.ex)
    (active : s.disc.state ≠ .unset) : Works [.clock, .port, .reading] s (s.acquire p good done).reread := by
  by_cases big : s.disc.settings.stepNs < p.e.natAbs
  · exact State.StepsInto.works (State.acquire_step good done big) low active
  · exact State.UpdatesInto.works (State.acquire_update good done (Nat.le_of_not_lt big)) small active

theorem settlingFault (kind : ReferenceKind) (pulse : Option (Int × Stamp)) (d : Discipline)
    (note : d.qualityAt = s.disc.qualityAt) (rate : d.rate = s.disc.rate) (state : d.state = s.disc.state)
    (suspect : d.suspect = s.disc.suspect) (settings : d.settings = s.disc.settings) (good : s.disc.StateOk → d.StateOk)
    (settling : s.disc.state = .settling) :
    Works [.clock, .port, .reading] s ((s.led s.time s.rolled d []).settlingFault kind pulse).reread := by
  obtain ⟨rateKept, settingsKept⟩ := d.settlingFaulted_keeps
  exact State.Faults.works (State.settlingFault_faults kind pulse d note rate state suspect) (rateKept.trans rate)
    (settingsKept.trans settings) (by rw [settling]; decide)
    fun h => Discipline.settlingFaulted_stateOk (state.trans settling) (good h)

theorem lockedFault (kind : ReferenceKind) (pulse : Option (Int × Stamp)) (d : Discipline)
    (note : d.qualityAt = s.disc.qualityAt) (rate : d.rate = s.disc.rate) (state : d.state = s.disc.state)
    (suspect : d.suspect = s.disc.suspect) (settings : d.settings = s.disc.settings) (good : s.disc.StateOk → d.StateOk)
    (locked : s.disc.state = .locked) :
    Works [.clock, .port, .reading] s ((s.led s.time s.rolled d []).lockedFault kind pulse).reread := by
  obtain ⟨rateKept, settingsKept⟩ := d.lockedFaulted_keeps s.time.epoch
  exact State.Faults.works (State.lockedFault_faults kind pulse d note rate state suspect) (rateKept.trans rate)
    (settingsKept.trans settings) (by rw [locked]; decide)
    fun h => Discipline.lockedFaulted_stateOk _ (state.trans locked) (good h)

/-- A fault in HOLDOVER, of a controller that stands as `d` (02 R42). -/
theorem holdoverFault (kind : ReferenceKind) (pulse : Option (Int × Stamp)) (d : Discipline)
    (note : d.qualityAt = s.disc.qualityAt) (rate : d.rate = s.disc.rate) (slew : d.slew = s.disc.slew)
    (label : d.label = s.disc.label) (state : d.state = s.disc.state) (suspect : d.suspect = s.disc.suspect)
    (settings : d.settings = s.disc.settings) (good : s.disc.StateOk → d.StateOk) :
    Works [.clock, .port, .reading] s ((s.led s.time s.rolled d []).holdoverFault kind pulse).reread := by
  rw [State.holdoverFault, State.updDisc_led, State.notifyAll_led]
  refine disc_event _ note state suspect settings rate slew label fun h => ?_
  obtain ⟨zero, window, expected, silence, suspect, good, faults, -, age⟩ := good h.2.2.1
  exact ⟨zero, window, expected, silence, suspect, good, faults, Nat.zero_le _, age⟩

/-- A good pulse of a controller that stands as `f` makes of it (02 R35, R38). -/
theorem update (f : Discipline → Discipline) (note : (f (s.disc.updated p.e)).qualityAt = s.disc.qualityAt)
    (rate : (f (s.disc.updated p.e)).rate = (s.disc.updated p.e).rate)
    (slew : (f (s.disc.updated p.e)).slew = (s.disc.updated p.e).slew)
    (settings : (f (s.disc.updated p.e)).settings = s.disc.settings) (active : s.disc.state ≠ .unset)
    (state : s.disc.StateOk → (f (s.disc.updated p.e)).StateOk) :
    Works [.clock, .port, .reading] s
      (((s.update p.e).updDisc f).raiseQuality s.disc.state s.disc.suspect).reread := by
  obtain ⟨disc, counts, event⟩ := State.update_event (s := s) (p := p) f note rate slew rfl
  refine .event event (by rw [disc]; exact settings) fun h => ?_
  obtain ⟨rateOk, slewOk, settingsOk⟩ := Discipline.updated_termsOk p.e h.2.1
  refine State.clockOk_of disc event (h.valid (.inl active)) (State.setIncrement_value h.1 counts.1 rfl) ⟨?_, ?_, ?_⟩
    (state h.2.2.1)
  · rw [rate]
    exact rateOk
  · rw [slew, settings]
    exact slewOk
  · rw [settings]
    exact settingsOk

theorem settlingPulse (low : -128000000000 ≤ p.ex) (settling : s.disc.state = .settling) :
    Works [.clock, .port, .reading] s (s.settlingPulse p).reread := by
  have active : s.disc.state ≠ .unset := by rw [settling]; decide
  rw [State.settlingPulse]
  split
  · have epoch : (s.update p.e).time.epoch = s.time.epoch := Timescale.reincrement_epoch ..
    rw [State.lock]
    change Works _ s ((((s.update p.e).updDisc _).updDisc (Discipline.expect _ 1 (s.update p.e).time.epoch)).raiseQuality
      _ _).reread
    rw [epoch]
    refine update (fun d => Discipline.expecting { d with
      state := .locked, suspect := false, good := min (d.good + 1) 16, faults := 0, instant := some p.stamp.time
      silence := none } (p.nominal + 1) 1 s.time.epoch) rfl rfl rfl rfl active fun h => ?_
    obtain ⟨-, -, -, -, -, -, -, reacquired, age⟩ := h
    exact ⟨nofun, iff_of_true rfl (.inl rfl), iff_of_true rfl (.inl rfl), iff_of_false Bool.false_ne_true nofun, nofun,
      Nat.min_le_right .., Nat.zero_le _, reacquired, age⟩
  · refine acquire ?_ false low active
    split
    · exact Nat.min_le_right ..
    · exact Nat.zero_le _

theorem lockedPulse (low : -128000000000 ≤ p.ex) (locked : s.disc.state = .locked) :
    Works [.clock, .port, .reading] s (s.lockedPulse p).reread := by
  have active : s.disc.state ≠ .unset := by rw [locked]; decide
  rw [State.lockedPulse]
  split
  · exact lockedFault .outlier _ (Discipline.expecting { s.disc with instant := some p.stamp.time } (p.nominal + 1) 1
      s.time.epoch) rfl rfl rfl rfl rfl (Discipline.expecting_stateOk (d := { s.disc with instant := some p.stamp.time })
        _ _ _ (.inl locked)) locked
  split
  · have epoch : (s.update p.e).time.epoch = s.time.epoch := Timescale.reincrement_epoch ..
    dsimp only
    rw [epoch]
    refine update (fun d => { Discipline.expecting d (p.nominal + 1) 1 s.time.epoch with
      suspect := false, instant := some p.stamp.time }) rfl rfl rfl rfl active fun h => ?_
    obtain ⟨-, -, -, silence, -, rest⟩ := h
    refine ⟨fun other => ?_, iff_of_true rfl (.inl locked), iff_of_true rfl (.inl locked), silence, nofun, rest⟩
    dsimp only at other
    rw [locked] at other
    exact absurd other nofun
  · exact acquire (Nat.zero_le _) false low active

theorem holdoverPulse (low : -128000000000 ≤ p.ex) (holdover : s.disc.state = .holdover) :
    Works [.clock, .port, .reading] s (s.holdoverPulse p).reread := by
  have active : s.disc.state ≠ .unset := by rw [holdover]; decide
  rw [State.holdoverPulse]
  split
  · exact acquire (by split <;> decide) true low active
  · next more =>
    refine disc_event (d := { Discipline.expecting s.disc (p.nominal + 1) 4 s.time.epoch with
      reacquired := s.disc.reacquired + 1, instant := some p.stamp.time }) [] rfl rfl rfl rfl rfl rfl rfl fun h => ?_
    obtain ⟨slew, window, expected, silence, suspect, good, faults, -, age⟩ := Discipline.expecting_stateOk (d := s.disc)
      (p.nominal + 1) 4 s.time.epoch (.inr holdover) h.2.2.1
    refine ⟨slew, window, expected, silence, suspect, good, faults, ?_, age⟩
    obtain ⟨-, -, -, -, -, -, -, -, -, most⟩ := h.2.1
    exact Nat.le_trans (Nat.le_of_lt (Nat.lt_of_not_le more)) most

end Works

end Sys2Proof.Machine

/-! PROOF. Pulses, missing pulses, rollovers, SECP and the commands of the controller as actions on banks (01, 02). -/

namespace Sys2Proof.Machine

namespace Works
variable {s : State} {p : Pulse}

/-- The controller's action on a pulse (02 R33, R34, R35, R38, R42, R45). -/
theorem judge (low : -128000000000 ≤ p.ex) : Works [.clock, .port, .reading] s (s.judge p).reread := by
  have labelled {l : PendingLabel} (label : s.disc.label = some l)
      (taken : s.disc.state = .unset
        ∨ (s.disc.state = .freerun ∨ s.disc.state = .settling) ∧ s.isDoublePulse p.stamp = false
        ∨ (s.disc.state = .locked ∨ s.disc.state = .holdover) ∧ s.insideWindow p.stamp = true) :
      Works [.clock, .port, .reading] s (s.judge p).reread := by
    rw [State.judge_label label taken]
    exact labelPulse low label
  have near : (if s.withinLock p then 1 else 0) ≤ 16 := by split <;> decide
  cases state : s.disc.state with
  | unset =>
    cases label : s.disc.label with
    | none =>
      rw [State.judge_unset state label]
      exact reread s
    | some l => exact labelled label (.inl state)
  | freerun =>
    cases double : s.isDoublePulse p.stamp with
    | true =>
      rw [State.judge_freerun_double state double]
      exact reread s
    | false =>
      cases label : s.disc.label with
      | none =>
        rw [State.judge_freerun state double label]
        exact acquire near false low (by rw [state]; decide)
      | some l => exact labelled label (.inr (.inl ⟨.inl state, double⟩))
  | settling =>
    cases double : s.isDoublePulse p.stamp with
    | true =>
      rw [State.judge_settling_double state double]
      exact settlingFault .doublePulse _ s.disc rfl rfl rfl rfl rfl id state
    | false =>
      cases label : s.disc.label with
      | none =>
        rw [State.judge_settling state double label]
        exact settlingPulse low state
      | some l => exact labelled label (.inr (.inl ⟨.inr state, double⟩))
  | locked =>
    cases inside : s.insideWindow p.stamp with
    | false =>
      rw [State.judge_locked_outside state inside]
      exact lockedFault .outOfWindow _ s.disc rfl rfl rfl rfl rfl id state
    | true =>
      cases label : s.disc.label with
      | none =>
        rw [State.judge_locked state inside label]
        exact lockedPulse low state
      | some l => exact labelled label (.inr (.inr ⟨.inl state, inside⟩))
  | holdover =>
    cases inside : s.insideWindow p.stamp with
    | false =>
      rw [State.judge_holdover_outside state inside]
      exact holdoverFault .outOfWindow _ s.disc rfl rfl rfl rfl rfl rfl rfl id
    | true =>
      cases label : s.disc.label with
      | none =>
        rw [State.judge_holdover state inside label]
        exact holdoverPulse low state
      | some l => exact labelled label (.inr (.inr ⟨.inr state, inside⟩))

/-- A pulse reaches the controller (02 R26). -/
theorem takePulse (st : Stamp) (s : State) : Works [.clock, .port, .reading] s (s.takePulse st) :=
  .ite (fun _ => .refl) fun _ => judge (judgePulse_ex st)

theorem noPulse (s : State) : Works [.clock, .port, .reading] s s.noPulse := by
  rw [State.noPulse]
  split
  · exact .refl
  · next d silence =>
    refine .ite (fun h => ?_) fun _ => .refl
    rw [Bool.and_eq_true, Bool.and_eq_true, beq_iff_eq] at h
    refine settlingFault .noPulse none { s.disc with silence := some { d with sec := d.sec + 2 } } rfl rfl rfl rfl rfl
      (fun good => ?_) h.1.2
    obtain ⟨slew, window, expected, -, rest⟩ := good
    exact ⟨slew, window, expected, iff_of_true rfl h.1.2, rest⟩

theorem missedWindow (s : State) : Works [.clock, .port, .reading] s s.missedWindow := by
  rw [State.missedWindow]
  split
  · next w x _ _ =>
    refine .ite (fun h => ?_) fun _ => .refl
    split
    · next locked =>
      exact lockedFault .missedWindow none (s.disc.expecting (x.sec + 1) 1 s.time.epoch) rfl rfl rfl rfl rfl
        (Discipline.expecting_stateOk _ _ _ (.inl locked)) locked
    · next holdover =>
      exact holdoverFault .missedWindow none (s.disc.expecting (x.sec + 1) 4 s.time.epoch) rfl rfl rfl rfl rfl rfl rfl
        (Discipline.expecting_stateOk _ _ _ (.inr holdover))
    · exact .refl
    · exact .refl
    · exact .refl
  · exact .refl

end Works

/-! ## Rollovers (02 R43, R46) -/

theorem DisciplineSettings.holdoverSeconds_le (r : DisciplineSettings) : r.holdoverSeconds ≤ 10000 := by
  rw [r.holdoverSeconds_eq]
  match r.holdoverLimit with
  | 0 | 1 | 2 | 3 => decide

theorem Discipline.advanceAge_ok {d : Discipline} (terms : d.TermsOk) (h : d.StateOk) :
    d.advanceAge.TermsOk ∧ d.advanceAge.StateOk := by
  obtain ⟨slew, window, expected, silence, suspect, good, faults, reacquired, age⟩ := h
  rw [Discipline.advanceAge]
  split
  · next holdover =>
    have zero := slew (.inr (.inr holdover))
    split
    · refine ⟨terms, fun _ => zero, iff_of_false Bool.false_ne_true nofun, iff_of_false Bool.false_ne_true nofun, ?_,
        fun yes => ?_, good, faults, Nat.zero_le _, Nat.zero_le _⟩
      · exact silence.trans (iff_of_false (by rw [holdover]; exact nofun) nofun)
      · exact absurd (holdover.symm.trans (suspect yes)) (by decide)
    · next more =>
      refine ⟨terms, slew, window, expected, silence, suspect, good, faults, reacquired, ?_⟩
      have := d.settings.holdoverSeconds_le
      dsimp only
      omega
  · exact ⟨terms, slew, window, expected, silence, suspect, good, faults, reacquired, age⟩

theorem Discipline.advanceAge_unset {d : Discipline} (unset : d.state = .unset) : d.advanceAge = d :=
  if_neg (by rw [unset]; decide)

/-- The controller with its age advanced, where the counter stays. -/
theorem State.clockOk_aged {s u : State} {d : Discipline} (time : u.time = s.time) (mon : u.mon = s.mon)
    (disc : u.disc = { d with qualityAt := u.disc.qualityAt }) (rate : d.rate = s.disc.rate) (slew : d.slew = s.disc.slew)
    (good : s.disc.TermsOk → s.disc.StateOk → d.TermsOk ∧ d.StateOk)
    (unset : s.disc.state = .unset → s.disc.label = none → d.state = .unset ∧ d.label = none) (h : s.ClockOk) :
    u.ClockOk := by
  obtain ⟨value, terms, state, invalid⟩ := h
  obtain ⟨termsOk, stateOk⟩ := good terms state
  rw [State.valueOk_iff] at value
  rw [State.ClockOk, State.valueOk_iff, State.DisciplineOk, State.InvalidOk, time, mon, disc]
  refine ⟨⟨value.1, ?_⟩, termsOk, stateOk, fun yes => unset (invalid yes).1 (invalid yes).2⟩
  dsimp only
  rw [rate, slew]
  exact value.2

theorem Discipline.advanceAge_slew (d : Discipline) : d.advanceAge.slew = d.slew := by
  rw [Discipline.advanceAge]
  split
  · split <;> rfl
  · rfl

/-- An event at a rollover as an action. -/
theorem Works.risen {s u : State} {t : Timescale} {d : Discipline} {bs : List NoticeBody}
    (hu : u = ((s.risen.led t .taken d bs).raiseQuality s.disc.state s.disc.suspect).reread)
    (note : d.qualityAt = s.disc.qualityAt)
    (clock : s.ClockOk → u.time = t → u.mon = s.mon → u.disc = { d with qualityAt := u.disc.qualityAt } → u.ClockOk) :
    Works [.clock, .port, .reading] s u := by
  obtain ⟨whole, disc, time, ports⟩ := State.event_of_risen hu note
  have mon : u.mon = s.mon := (congrArg State.mon whole :)
  have fell : u.secpFell = none := (congrArg State.secpFell whole :)
  have secp : u.secp = true := (congrArg State.secp whole :)
  have rise : u.secpRise = s.tick := (congrArg State.secpRise whole :)
  have rolled : u.rolled = .taken := (congrArg State.rolled whole :)
  refine .told bs (whole.trans ?_) (fun h => clock h time mon disc) fun _ f mem => absurd (fell ▸ mem) nofun
  rw [fell, secp, rise, rolled, ports]

/-- The counter at a fallback, before the label (02 R46; log entry 5). -/
theorem State.fallback_inRange {s : State} {v : Timescale} (hv : v = if s.time.borrows (increment s.disc.rate 0) then
      ({ s.time with inc := increment s.disc.rate 0 } : Timescale).put s.time.sec 0
    else s.time.reincrement (increment s.disc.rate 0)) (h : s.ValueOk) :
    v.InRange ∧ v.inc = increment s.disc.rate 0 := by
  rw [State.valueOk_iff] at h
  rw [hv]
  split
  · exact ⟨Timescale.put_inRange _ h.1.1 (by decide), Timescale.put_inc ..⟩
  · exact ⟨Timescale.reincrement_inRange h.1 (increment_lt ..), Timescale.reincrement_inc ..⟩

/-- A rollover that waits is taken (01 R5, R13; 02 R43, R46). -/
theorem Works.takeRollover (s : State) : Works [.clock, .port, .reading] s s.takeRollover := by
  by_cases h : (s.running && s.rolled == .waiting) = true
  · rw [Bool.and_eq_true, beq_iff_eq] at h
    obtain ⟨run, waiting⟩ := h
    rw [State.takeRollover_waiting run waiting]
    obtain ⟨labelKept, rateKept, noteKept⟩ := s.disc.advanceAge_keeps
    cases label : s.disc.label with
    | none =>
      rw [State.labelCheck_none (labelKept.trans label)]
      refine .risen rfl noteKept fun ok time mon disc => State.clockOk_aged time mon disc rateKept s.disc.advanceAge_slew
        Discipline.advanceAge_ok (fun unset none => ?_) ok
      rw [Discipline.advanceAge_unset unset]
      exact ⟨unset, none⟩
    | some l =>
      by_cases first : l.rollovers = 0
      · rw [State.labelCheck_first (labelKept.trans label) first, State.updDisc_led]
        exact .risen rfl noteKept fun ok time mon disc => State.clockOk_aged time mon disc rateKept s.disc.advanceAge_slew
          Discipline.advanceAge_ok (fun _ none => absurd (label.symm.trans none) nofun) ok
      · obtain ⟨v, hv⟩ : ∃ v, v = if s.time.borrows (increment s.disc.rate 0) then
            ({ s.time with inc := increment s.disc.rate 0 } : Timescale).put s.time.sec 0
          else s.time.reincrement (increment s.disc.rate 0) := ⟨_, rfl⟩
        have fell := State.fallback_led (s := s.risen) (v := v) (d := s.disc.advanceAge) l.value rfl
          (by rw [rateKept]; exact hv)
        rw [s.disc.advanceAge_fallback] at fell
        rw [State.labelCheck_second (labelKept.trans label) (by omega)]
        refine .risen (congrArg (fun x : State => (x.raiseQuality s.disc.state s.disc.suspect).reread) fell) rfl
          fun ok time mon disc => ?_
        obtain ⟨range, inc⟩ := State.fallback_inRange hv ok.1
        refine ⟨?_, ?_, ?_, fun invalid => ?_⟩
        · rw [State.valueOk_iff, time, disc]
          exact ⟨⟨Nat.min_le_right .., range.2.1, range.2.2.1, fun no => absurd rfl no⟩, inc⟩
        · rw [disc]
          exact ⟨ok.2.1.1, Nat.zero_le _, ok.2.1.2.2⟩
        · rw [disc]
          exact ⟨fun _ => rfl, iff_of_false Bool.false_ne_true nofun, iff_of_false Bool.false_ne_true nofun,
            iff_of_false Bool.false_ne_true nofun, nofun, Nat.zero_le _, Nat.zero_le _, Nat.zero_le _, Nat.zero_le _⟩
        · rw [mon, ok.valid (.inr (by rw [label]; exact nofun))] at invalid
          exact absurd invalid Bool.false_ne_true
  · rw [State.takeRollover, if_neg h]
    exact .refl

/-! ## SECP (01 R19) -/

theorem Works.dropSecp {s : State} (beyond : s.disc.settings.secpNs ≤ s.time.ns) : Works [.secp] s s.dropSecp := by
  refine .one ⟨rfl, fun _ f mem => ?_⟩
  obtain rfl := Option.some.inj mem
  exact ⟨rfl, Nat.le_refl _, fun _ => ⟨beyond, Nat.le_refl _⟩⟩

theorem Works.secpFall (s : State) : Works [.secp] s s.secpFall := by
  refine .ite (fun h => .dropSecp ?_) fun _ => .refl
  rw [Bool.and_eq_true, decide_eq_true_eq] at h
  exact h.2

/-! ## The controller's commands (02 R44, R47, R48, R50) -/

/-- A change of the terms of a controller, taken at the tick (01 R3). -/
theorem Works.terms {s : State} (d : Discipline) (note : d.qualityAt = s.disc.qualityAt) (same : d.state = s.disc.state)
    (suspect : d.suspect = s.disc.suspect) (settings : d.settings = s.disc.settings) (label : d.label = s.disc.label)
    (good : s.ClockOk → d.TermsOk ∧ d.StateOk) :
    Works [.clock, .port, .reading] s (s.led (s.setIncrement (increment d.rate d.slew)).time
      (s.setIncrement (increment d.rate d.slew)).rolled d []).reread := by
  obtain ⟨u, hu⟩ : ∃ u, u = (s.led (s.setIncrement (increment d.rate d.slew)).time
      (s.setIncrement (increment d.rate d.slew)).rolled d []).reread := ⟨_, rfl⟩
  have quiet := (State.raiseQuality_same (s := s) (t := (s.setIncrement (increment d.rate d.slew)).time)
    (r := (s.setIncrement (increment d.rate d.slew)).rolled) (bs := []) ⟨same, suspect⟩).symm
  obtain ⟨disc, time, -, event⟩ := State.isEvent_of_led quiet hu note
  have mon : u.mon = s.mon := (congrArg State.mon event.1 :)
  rw [← hu]
  refine .event event (by rw [disc]; exact settings) fun h => ?_
  obtain ⟨terms, state⟩ := good h
  refine ⟨State.setIncrement_value h.1 time (by rw [disc]), by rw [disc]; exact terms, by rw [disc]; exact state, ?_⟩
  rw [State.InvalidOk, mon, disc]
  dsimp only
  rw [same, label]
  exact h.2.2.2

theorem Works.trimRate (r : Int) (s : State) : Works [.clock, .port, .reading] s (s.trimRate r).1 := by
  by_cases free : s.disc.state = .settling ∨ s.disc.state = .locked
  · rw [State.trimRate_refused free]
    exact .refl
  · have state : s.disc.state = .unset ∨ s.disc.state = .freerun ∨ s.disc.state = .holdover := by
      cases h : s.disc.state with
      | unset => exact .inl rfl
      | freerun => exact .inr (.inl rfl)
      | holdover => exact .inr (.inr rfl)
      | settling => exact absurd (.inl h) free
      | locked => exact absurd (.inr h) free
    rw [State.trimRate_taken state]
    refine .terms { s.disc with rate := max (-200000) (min 200000 r) } rfl rfl rfl rfl rfl fun h => ⟨⟨?_, h.2.1.2⟩, h.2.2.1⟩
    dsimp only
    omega

theorem Works.armLabel (v : Nat) (s : State) : Works [.clock] s (s.armLabel v).1 := by
  cases invalid : s.mon.invalid with
  | true =>
    rw [State.armLabel_of_invalid invalid]
    exact .refl
  | false =>
    rw [State.armLabel_of_valid invalid]
    refine .one ⟨rfl, fun h => ⟨h.1, h.2.1, h.2.2.1, fun yes => ?_⟩, fun h => h⟩
    exact absurd (invalid.symm.trans yes) Bool.false_ne_true

theorem Works.clearInvalid (s : State) : Works [.invalid, .clock, .port, .reading] s (s.clearInvalid).1 := by
  rw [State.clearInvalid]
  split
  · exact .refl
  split
  · have cleared : Works [.invalid] s (s.updMon fun m => { m with invalid := false }) := .one ⟨rfl, rfl⟩
    exact ((cleared.mono (by simp)).trans ((Works.notifyAll _ _).mono (by simp))).trans ((Works.reread _).mono (by simp))
  · exact .refl

/-- A slew clamped to a new limit is 0 where it was. -/
theorem clampInt_zero (n : Nat) : clampInt (-(n : Int)) n 0 = 0 := by
  rw [clampInt]
  omega

/-- The counter, the controller and the fall of SECP with a new settings record in force (02 R51; 01 R3, R20). -/
theorem Works.withSettings {r : DisciplineSettings} (ok : r.Ok) (s : State) : Works [.cal, .clock, .port, .reading] s
    (s.withSettings r (clampInt (-(r.slewLimit : Int)) r.slewLimit s.disc.slew)).reread := by
  obtain ⟨w, hw⟩ : ∃ w, w = s.withSettings r (clampInt (-(r.slewLimit : Int)) r.slewLimit s.disc.slew) := ⟨_, rfl⟩
  obtain ⟨c, hc⟩ : ∃ c : State, c = { s with calExpiry := w.calExpiry } := ⟨_, rfl⟩
  have disc : w.disc = { s.disc with settings := r, slew := clampInt (-(r.slewLimit : Int)) r.slewLimit s.disc.slew } := by
    rw [hw]; rfl
  have mon : w.mon = c.mon := by rw [hw, hc]; rfl
  have fell : w.secpFell = s.secpFell.map fun f => { f with width := min f.width r.secpNs } := by rw [hw]; rfl
  have secp : w.secp = s.secp := by rw [hw]; rfl
  have tick : w.tick = s.tick := by rw [hw]; rfl
  have time : w.time = (s.setIncrement (increment w.disc.rate w.disc.slew)).time := by rw [hw]; rfl
  have toCal : Works [.cal] s c := .one ⟨by rw [hc]; rfl, trivial⟩
  have cdisc : c.disc = s.disc := by rw [hc]
  have read : w.reread = { w.rereadAs w.reading with
      secp := w.secp || decide (w.secpBack w), secpFell := if w.secpBack w then none else w.secpFell } :=
    State.reread_secp rfl rfl
  have same : c.raised w.reread [] = c := State.raised_same (not_not.2 ⟨by
    rw [show w.reread.disc = w.disc from rfl, disc, cdisc], by rw [show w.reread.disc = w.disc from rfl, disc, cdisc]⟩)
  have frame : w = { c with time := w.time, rolled := w.rolled, disc := w.disc, secpFell := w.secpFell } := by
    rw [hc, hw]
    rfl
  rw [← hw]
  refine (toCal.mono (by simp)).trans (Works.mono (.told [] ?_ (fun h => ?_) fun h f mem => ?_) (by simp))
  · rw [same]
    have ports : (w.rereadAs w.reading).ports = (c.rereadAs w.reading).ports :=
      State.rereadAs_ports_congr _ (by rw [frame]) (by rw [frame])
    have reading : w.reread.reading = w.reading := rfl
    have moved (r : Reading) : w.rereadAs r = { c.rereadAs r with
        time := w.time, rolled := w.rolled, disc := w.disc, secpRise := w.secpRise, secpFell := w.secpFell
        ports := (w.rereadAs r).ports } := by
      rw [hc, hw]
      rfl
    rw [reading, ← ports, ← show w.reread.ports = (w.rereadAs w.reading).ports from rfl]
    refine (read.trans (congrArg (fun v : State => { v with
      secp := w.secp || decide (w.secpBack w), secpFell := if w.secpBack w then none else w.secpFell }) (moved _))).trans ?_
    rw [show w.reread.secp = (w.secp || decide (w.secpBack w)) from (congrArg State.secp read :),
      show w.reread.secpFell = (if w.secpBack w then none else w.secpFell) from (congrArg State.secpFell read :)]
    rfl
  · have value : s.ValueOk := by
      have := h.1
      rw [hc] at this
      exact this
    rw [hc] at h
    obtain ⟨-, ⟨rate, -, -⟩, state, invalid⟩ := h
    refine ⟨State.setIncrement_value value (u := w.reread) time rfl, ?_, ?_, ?_⟩
    · rw [show w.reread.disc = w.disc from rfl, disc]
      refine ⟨rate, ?_, ok⟩
      have := clampInt_bounds (lo := -(r.slewLimit : Int)) (hi := r.slewLimit) s.disc.slew (by omega)
      dsimp only
      omega
    · rw [show w.reread.disc = w.disc from rfl, disc]
      obtain ⟨slew, rest⟩ := state
      refine ⟨fun h => ?_, rest⟩
      dsimp only
      rw [show s.disc.slew = 0 from slew h]
      exact clampInt_zero _
    · rw [State.InvalidOk, show w.reread.disc = w.disc from rfl, show w.reread.mon = w.mon from rfl, disc, mon, hc]
      exact invalid
  · rw [read] at mem ⊢
    dsimp only at mem ⊢
    split at mem
    · exact absurd mem nofun
    · next back =>
      rw [fell] at mem
      obtain ⟨g, memG, rfl⟩ := Option.map_eq_some_iff.1 mem
      rw [hc] at h
      obtain ⟨low, past, -⟩ := h g memG
      rw [secp, low, decide_eq_false back]
      refine ⟨rfl, ?_, fun now => ⟨Nat.le_of_not_lt fun below => back ⟨_, fell ▸ mem, now, below⟩, ?_⟩⟩
      · exact tick ▸ past
      · rw [State.rereadAs_disc, disc]
        exact Nat.min_le_right ..

theorem Works.setDiscipline {r : DisciplineSettings} (ok : r.Ok) (s : State) :
    Works [.cal, .clock, .port, .reading, .secp] s (s.setDiscipline r) := by
  rw [State.setDiscipline_eq]
  have settled := (Works.withSettings ok s).mono (L := [.cal, .clock, .port, .reading, .secp]) (by simp)
  refine .ite (fun h => settled.trans ?_) fun _ => settled
  refine Works.mono (K := [.secp]) (.one ⟨rfl, fun _ f mem => ?_⟩) (by simp)
  obtain rfl := Option.some.inj mem
  exact ⟨rfl, Nat.le_refl _, fun _ => ⟨h.2, Nat.le_refl _⟩⟩

theorem Works.writeDiscipline (p : Fin 3) (sl a b w lt lc rc st hl ci sw ls po : Nat) (s : State) :
    Works [.cal, .clock, .port, .reading, .secp] s (s.writeDiscipline p sl a b w lt lc rc st hl ci sw ls po).1 := by
  rw [State.writeDiscipline]
  split
  · dsimp only
    refine (Works.setDiscipline ?_ s).trans ((Works.notifyAll _ _).mono (by simp))
    obtain ⟨low, high⟩ := clampNat_bounds sl (show 1 ≤ 100000 by decide)
    obtain ⟨lowL, highL⟩ := clampNat_bounds lc (show 2 ≤ 16 by decide)
    obtain ⟨lowR, highR⟩ := clampNat_bounds rc (show 2 ≤ 16 by decide)
    exact ⟨low, high, Nat.min_le_right .., Nat.min_le_right .., lowL, highL, lowR, highR⟩
  · exact .refl

end Sys2Proof.Machine

/-! PROOF. Actions on the lines (04). -/

namespace Sys2Proof.Machine

/-! ## What a line holds before its frames are handed off -/

/-- What a line holds, but that a frame that is ready has been handed off. -/
structure Line.BodyOk (running : Bool) (x : Line) : Prop where
  enable : x.state = .disabled ↔ x.settings.enable = false
  quietLow : 1 ≤ x.settings.quietMs
  quietHigh : x.settings.quietMs ≤ 10000
  lock : running = true → (x.lock = true ↔ x.receiving = true)
  quiet : running = true → (x.quiet.isSome ↔ x.state = .live)
  single : x.frames.countP Frame.isOpen ≤ 1
  closed : running = true → x.receiving = false → x.frames.any Frame.isOpen = false

theorem Line.ok_iff {running : Bool} {x : Line} : x.Ok running ↔ x.BodyOk running ∧ x.frames.any Frame.ready = false := by
  constructor
  · rintro ⟨enable, low, high, link, ready, single, closed⟩
    exact ⟨⟨enable, low, high, fun run => (link run).1, fun run => (link run).2, single, closed⟩, ready⟩
  · rintro ⟨⟨enable, low, high, lock, quiet, single, closed⟩, ready⟩
    exact ⟨enable, low, high, fun run => ⟨lock run, quiet run⟩, ready, single, closed⟩

/-- A line that has handed off the frames that are ready, and counted them (04 R87, R90). -/
def Line.handed (l : Fin 8) (x : Line) : Line :=
  (x.frames.filterMap (Frame.arrival l)).foldl (fun y a => y.countArrival a) { x with frames := x.frames.filter fun f => !f.ready }

/-- Counting arrivals changes the three counters of the line. -/
theorem Line.countArrivals_eq (as : List Arrival) (x : Line) : ∃ a b c, as.foldl (fun y a => y.countArrival a) x =
    { x with frameCount := a, damaged := b, coarseCount := c } := by
  induction as generalizing x with
  | nil => exact ⟨_, _, _, rfl⟩
  | cons a as ih => exact ih (x.countArrival a)

theorem Line.handed_eq (l : Fin 8) (x : Line) : ∃ a b c, x.handed l =
    { x with frames := x.frames.filter fun f => !f.ready, frameCount := a, damaged := b, coarseCount := c } :=
  Line.countArrivals_eq _ _

theorem Line.handed_receiving (l : Fin 8) (x : Line) : (x.handed l).receiving = x.receiving := by
  obtain ⟨a, b, c, handed⟩ := x.handed_eq l
  rw [handed]
  rfl

theorem Line.BodyOk.handed {running : Bool} {x : Line} (l : Fin 8) (h : x.BodyOk running) : (x.handed l).Ok running := by
  obtain ⟨a, b, c, handed⟩ := x.handed_eq l
  rw [handed, Line.ok_iff]
  refine ⟨⟨h.enable, h.quietLow, h.quietHigh, h.lock, h.quiet, ?_, fun run rest => ?_⟩, ?_⟩
  · exact Nat.le_trans List.filter_sublist.countP_le h.single
  · rw [List.any_eq_false]
    exact fun f mem => List.any_eq_false.1 (h.closed run rest) f (List.mem_of_mem_filter mem)
  · rw [List.any_eq_false]
    intro f mem
    simpa using (List.mem_filter.1 mem).2

theorem State.handOff_putLine (l : Fin 8) (x : Line) (s : State) : (s.putLine l x).handOff l =
    { s.putLine l (x.handed l) with
      arrivals := s.arrivals.set l (s.arrivals[l] ++ x.frames.filterMap (Frame.arrival l)) } := by
  rw [State.handOff, State.updLine_putLine, State.putLine_lines]
  rfl

/-! ## Changes of one line -/

namespace Works
variable {l : Fin 8} {x : Line} {s : State}

theorem putLine (ok : s.lines[l].Ok s.running → x.Ok s.running)
    (rest : s.rstnAsserted = true → s.lines[l].receiving = false → x.receiving = false) :
    Works [.line] s (s.putLine l x) := by
  refine .one ⟨rfl, fun k => ?_⟩
  rw [State.putLine_get]
  by_cases same : k = l
  · rw [if_pos same, same]
    exact ⟨ok, rest⟩
  · rw [if_neg same]
    exact ⟨id, fun _ => id⟩

theorem arrivals (as : Vector (List Arrival) 8) (s : State) : Works [.arrival] s { s with arrivals := as } :=
  .one ⟨rfl, trivial⟩

theorem putHanded (ok : s.lines[l].Ok s.running → x.BodyOk s.running)
    (rest : s.rstnAsserted = true → s.lines[l].receiving = false → x.receiving = false) :
    Works [.line, .arrival] s ((s.putLine l x).handOff l) := by
  rw [State.handOff_putLine]
  refine Works.trans (t := s.putLine l (x.handed l)) ?_ ?_
  · refine (putLine (fun h => (ok h).handed l) fun low still => ?_).mono (by simp)
    rw [Line.handed_receiving]
    exact rest low still
  · exact (arrivals _ _).mono (by simp)

theorem toLineState {st : LineState} (ok : s.lines[l].Ok s.running → Line.Ok s.running { x with state := st })
    (rest : s.rstnAsserted = true → s.lines[l].receiving = false → ({ x with state := st } : Line).receiving = false) :
    Works [.line, .port] s ((s.putLine l x).setLineState l st) := by
  by_cases same : x.state = st
  · rw [State.setLineState_same (by rw [State.putLine_lines]; exact same)]
    subst same
    exact (putLine ok rest).mono (by simp)
  · rw [State.setLineState_new same]
    exact ((putLine ok rest).mono (by simp)).trans ((notifyAll _ _).mono (by simp))

end Works

/-! ## The end and the start of a frame -/

/-- A line whose open frame has ended, before the hand-off (04 R75, R78). -/
def Line.ended (bytes : List Byte) (early : Bool) (tick : Nat) (x : Line) : Line :=
  { x with
    state := .live
    frames := x.frames.map fun f => if f.isOpen then f.endWith bytes early else f
    quiet := some (tick + x.settings.quietMs * Config.ticksPerMs) }

theorem Line.ended_closed (bytes : List Byte) (early : Bool) (tick : Nat) (x : Line) :
    ∀ f ∈ (x.ended bytes early tick).frames, f.isOpen = false := by
  intro g mem
  obtain ⟨f, -, rfl⟩ := List.mem_map.1 mem
  by_cases isOpen : f.isOpen = true
  · rw [if_pos isOpen]
    rfl
  · rw [if_neg isOpen]
    exact Bool.eq_false_iff.2 isOpen

/-- Only a line that is enabled receives. -/
theorem Line.BodyOk.enabled {running : Bool} {x : Line} (h : x.BodyOk running) (receives : x.receiving = true) :
    x.settings.enable ≠ false := by
  intro off
  rw [Line.receiving, h.enable.2 off] at receives
  cases receives

theorem Line.BodyOk.ended {running : Bool} {x : Line} (h : x.BodyOk running) (receives : x.receiving = true)
    (bytes : List Byte) (early : Bool) (tick : Nat) : (x.ended bytes early tick).BodyOk running where
  enable := iff_of_false (show ¬LineState.live = .disabled by decide) (h.enabled receives)
  quietLow := h.quietLow
  quietHigh := h.quietHigh
  lock run := iff_of_true ((h.lock run).2 receives) rfl
  quiet _ := iff_of_true rfl rfl
  single := by
    rw [List.countP_eq_zero.2 fun f mem => Bool.eq_false_iff.1 (x.ended_closed bytes early tick f mem)]
    exact Nat.zero_le 1
  closed _ rest := nomatch rest

section
variable {l : Fin 8} {s : State} {bytes : List Byte} {early : Bool}

theorem State.endFrame_open (some_open : s.lines[l].frames.any Frame.isOpen = true) :
    s.endFrame l bytes early = (s.putLine l (s.lines[l].ended bytes early s.tick)).handOff l
    ∨ ∃ b, s.endFrame l bytes early = ((s.putLine l (s.lines[l].ended bytes early s.tick)).handOff l).notifyAll b := by
  obtain ⟨x, hx⟩ : ∃ x : Line, x = { s.lines[l].ended bytes early s.tick with state := s.lines[l].state } := ⟨_, rfl⟩
  have ends : s.endFrame l bytes early = ((s.putLine l x).setLineState l .live).handOff l := by
    rw [hx]
    exact if_pos some_open
  have ended : s.lines[l].ended bytes early s.tick = { x with state := .live } := by rw [hx]; rfl
  rw [ends, ended]
  by_cases live : x.state = .live
  · left
    rw [State.setLineState_same (by rw [State.putLine_lines]; exact live), ← live]
  · right
    rw [State.setLineState_new live, State.notifyAll_handOff]
    exact ⟨_, rfl⟩

theorem State.endFrame_line (some_open : s.lines[l].frames.any Frame.isOpen = true) :
    (s.endFrame l bytes early).lines[l] = (s.lines[l].ended bytes early s.tick).handed l := by
  have handed : ((s.putLine l (s.lines[l].ended bytes early s.tick)).handOff l).lines[l] =
      (s.lines[l].ended bytes early s.tick).handed l := by
    rw [State.handOff_putLine]
    exact State.putLine_lines _
  obtain ends | ⟨b, ends⟩ := State.endFrame_open (bytes := bytes) (early := early) some_open <;> rw [ends] <;> exact handed

/-- No frame is open after the end of a frame. -/
theorem State.endFrame_closed : (s.endFrame l bytes early).lines[l].frames.any Frame.isOpen = false := by
  by_cases some_open : s.lines[l].frames.any Frame.isOpen = true
  · rw [State.endFrame_line some_open]
    obtain ⟨a, b, c, handed⟩ := (s.lines[l].ended bytes early s.tick).handed_eq l
    rw [handed, List.any_eq_false]
    exact fun f mem => Bool.eq_false_iff.1 (Line.ended_closed _ _ _ _ f (List.mem_of_mem_filter mem))
  · rw [State.endFrame_idle (Bool.eq_false_iff.2 some_open)]
    exact Bool.eq_false_iff.2 some_open

theorem State.endFrame_receiving (receives : s.lines[l].receiving = true) :
    (s.endFrame l bytes early).lines[l].receiving = true := by
  by_cases some_open : s.lines[l].frames.any Frame.isOpen = true
  · rw [State.endFrame_line some_open, Line.handed_receiving]
    rfl
  · rwa [State.endFrame_idle (Bool.eq_false_iff.2 some_open)]

end

namespace Works
variable {l : Fin 8} {s : State}

theorem endFrame (bytes : List Byte) (early : Bool) (receives : s.lines[l].receiving = true) :
    Works [.line, .port, .arrival] s (s.endFrame l bytes early) := by
  by_cases some_open : s.lines[l].frames.any Frame.isOpen = true
  · have handed : Works [.line, .arrival] s ((s.putLine l (s.lines[l].ended bytes early s.tick)).handOff l) :=
      putHanded (fun h => (Line.ok_iff.1 h).1.ended receives ..) fun _ rest => by rw [receives] at rest; cases rest
    obtain ends | ⟨b, ends⟩ := State.endFrame_open (bytes := bytes) (early := early) some_open
    · rw [ends]
      exact handed.mono (by simp)
    · rw [ends]
      exact (handed.mono (by simp)).trans ((notifyAll _ _).mono (by simp))
  · rw [State.endFrame_idle (Bool.eq_false_iff.2 some_open)]
    exact .refl

/-- One interpolator changes. -/
theorem updInterp {i : Input} {f : Interp → Interp} (ok : (s.interp i).Ok → (f (s.interp i)).Ok)
    (readings : s.ClockOk → (s.interp i).ReadingsOk → (f (s.interp i)).ReadingsOk) :
    Works [.interp] s (s.updInterp i f) := by
  refine .one ⟨rfl, fun k => ?_⟩
  rw [State.updInterp_get]
  by_cases same : k = Input.index i
  · rw [if_pos same, same]
    exact ⟨ok, readings⟩
  · rw [if_neg same]
    exact ⟨id, fun _ => id⟩

theorem count (s : State) (edge free : Nat) : Works [.count] s { s with edgeSeq := edge, free := free } :=
  .one ⟨rfl, trivial⟩

theorem present (i : Input) (s : State) : Works [.count, .interp] s (s.present i) :=
  ((count s (s.edgeSeq + 1) s.free).mono (by simp)).trans ((updInterp id fun _ => id).mono (by simp))

theorem frameEnds (bytes : List Byte) (how : FrameEnding) (s : State) :
    Works [.line, .port, .arrival] s (s.frameEnds l bytes how) :=
  .ite (fun h => endFrame bytes _ (Bool.and_eq_true _ _ ▸ h).2) fun _ => .refl

theorem byteLimit (bytes : List Byte) (s : State) : Works [.line, .port, .arrival] s (s.byteLimit l bytes) :=
  .ite (fun h => endFrame bytes _ (Bool.and_eq_true _ _ ▸ h).2) fun _ => .refl

theorem lockGained (l : Fin 8) (s : State) : Works [.line, .port] s (s.lockGained l) := by
  refine .ite (fun h => ?_) fun _ => .refl
  simp only [Bool.and_eq_true, Bool.not_eq_true', beq_iff_eq] at h
  obtain ⟨⟨run, released⟩, dark⟩ := h
  rw [State.updLine_eq]
  refine toLineState (fun ok => ?_) fun low => by rw [released] at low; cases low
  obtain ⟨body, ready⟩ := Line.ok_iff.1 ok
  refine Line.ok_iff.2 ⟨⟨?_, body.quietLow, body.quietHigh, fun _ => iff_of_true rfl rfl, fun run => ?_, body.single,
    fun _ rest => nomatch rest⟩, ready⟩
  · refine iff_of_false (show ¬LineState.quiet = .disabled by decide) fun off => ?_
    rw [body.enable.2 off] at dark
    cases dark
  · refine (body.quiet run).trans ?_
    rw [dark]
    exact iff_of_false (by decide) (show ¬LineState.quiet = .live by decide)

theorem lockLost (bytes : List Byte) (s : State) : Works [.line, .port, .arrival] s (s.lockLost l bytes) := by
  refine .ite (fun h => ?_) fun _ => .refl
  have receives := (Bool.and_eq_true _ _ ▸ h).2
  refine (endFrame bytes true receives).trans ?_
  obtain ⟨u, hu⟩ : ∃ u, u = s.endFrame l bytes true := ⟨_, rfl⟩
  have closed : u.lines[l].frames.any Frame.isOpen = false := by rw [hu]; exact State.endFrame_closed
  have on : u.lines[l].receiving = true := by rw [hu]; exact State.endFrame_receiving receives
  rw [← hu, State.updLine_eq]
  refine (toLineState (fun ok => ?_) fun _ rest => by rw [on] at rest; cases rest).mono (by simp)
  obtain ⟨body, ready⟩ := Line.ok_iff.1 ok
  exact Line.ok_iff.2 ⟨⟨iff_of_false (show ¬LineState.dark = .disabled by decide) (body.enabled on), body.quietLow, body.quietHigh,
    fun _ => iff_of_false Bool.false_ne_true Bool.false_ne_true, fun _ => iff_of_false Bool.false_ne_true
      (show ¬LineState.dark = .live by decide), body.single, fun _ _ => closed⟩, ready⟩

theorem quietExpiry (l : Fin 8) (s : State) : Works [.line, .port] s (s.quietExpiry l) := by
  refine .ite (fun h => ?_) fun _ => .refl
  simp only [Bool.and_eq_true, beq_iff_eq] at h
  obtain ⟨⟨run, live⟩, -⟩ := h
  have on : s.lines[l].receiving = true := (Line.receiving_iff _).2 (.inr live)
  rw [State.updLine_eq]
  refine toLineState (fun ok => ?_) fun _ rest => by rw [on] at rest; cases rest
  obtain ⟨body, ready⟩ := Line.ok_iff.1 ok
  exact Line.ok_iff.2 ⟨⟨iff_of_false (show ¬LineState.quiet = .disabled by decide) (body.enabled on), body.quietLow, body.quietHigh,
    fun run => iff_of_true ((body.lock run).2 on) rfl, fun _ => iff_of_false Bool.false_ne_true
      (show ¬LineState.quiet = .live by decide), body.single, fun _ rest => nomatch rest⟩, ready⟩

theorem startFrame (bytes : List Byte) (s : State) :
    Works [.line, .port, .arrival, .count, .interp] s (s.startFrame l bytes) := by
  refine .ite (fun h => ?_) fun _ => .refl
  rw [Bool.and_eq_true, Bool.and_eq_true] at h
  obtain ⟨⟨-, receives⟩, -⟩ := h
  refine ((endFrame bytes true receives).mono (by simp)).trans ?_
  obtain ⟨u, hu⟩ : ∃ u, u = s.endFrame l bytes true := ⟨_, rfl⟩
  have closed : u.lines[l].frames.any Frame.isOpen = false := by rw [hu]; exact State.endFrame_closed
  have on : u.lines[l].receiving = true := by rw [hu]; exact State.endFrame_receiving receives
  dsimp only
  rw [← hu, State.updLine_eq]
  refine Works.trans ((putLine (fun ok => ?_) fun _ rest => by rw [on] at rest; cases rest).mono (by simp))
    ((present _ _).mono (by simp))
  obtain ⟨body, ready⟩ := Line.ok_iff.1 ok
  refine Line.ok_iff.2 ⟨⟨body.enable, body.quietLow, body.quietHigh, body.lock, body.quiet, ?_, fun _ rest => ?_⟩, ?_⟩
  · rw [List.countP_append, List.countP_eq_zero.2 fun f mem => List.any_eq_false.1 closed f mem, Nat.zero_add]
    exact List.countP_le_length
  · exact absurd (on.symm.trans rest) (by decide)
  · rw [List.any_append, ready]
    rfl

/-- The frame that an edge belongs to takes its stamp and is handed off if it has ended (04 R80, R87). -/
theorem lineEdge (l : Fin 8) (edge : Nat) (r : Reading) (off : Nat) (coarse : Bool) (s : State) :
    Works [.line, .arrival] s (s.lineEdge l edge r off coarse) := by
  rw [State.lineEdge_eq]
  have isOpen (f : Frame) : (if f.edge = edge && f.stamp.isNone then
      { f with stamp := some (assembleStamp r off f.comp.toNat coarse) } else f).isOpen = f.isOpen := by split <;> rfl
  refine putHanded (fun ok => ?_) fun _ rest => rest
  obtain ⟨body, -⟩ := Line.ok_iff.1 ok
  refine ⟨body.enable, body.quietLow, body.quietHigh, body.lock, body.quiet, ?_, fun run rest => ?_⟩
  · rw [List.countP_map]
    exact Nat.le_trans (Nat.le_of_eq (List.countP_congr fun f _ => by rw [Function.comp, isOpen])) body.single
  · rw [List.any_map]
    exact (congrArg (List.any _) (funext isOpen)).trans (body.closed run rest)

/-! ## A line at rest and its settings -/

theorem atRest_ok {running : Bool} {x : Line} (low : 1 ≤ x.settings.quietMs) (high : x.settings.quietMs ≤ 10000) :
    x.atRest.Ok running := by
  have off : x.atRest.receiving = false := by
    cases h : x.settings.enable <;> rw [Line.atRest, h] <;> rfl
  have enable : x.atRest.state = .disabled ↔ x.settings.enable = false := by
    change (if x.settings.enable then LineState.dark else .disabled) = .disabled ↔ _
    cases x.settings.enable <;> decide
  refine Line.ok_iff.2 ⟨⟨enable, low, high, fun _ => ?_, fun _ => ?_, Nat.zero_le 1, fun _ _ => rfl⟩, rfl⟩
  · rw [off]
    exact Iff.rfl
  · refine iff_of_false Bool.false_ne_true fun live => ?_
    rw [Line.receiving, live] at off
    cases off

theorem atRest_receiving (x : Line) : x.atRest.receiving = false := by
  cases h : x.settings.enable <;> rw [Line.atRest, h] <;> rfl

/-- A line that has been changed comes to rest. -/
theorem rest {x : Line} (ok : s.lines[l].Ok s.running → 1 ≤ x.settings.quietMs ∧ x.settings.quietMs ≤ 10000) :
    Works [.line, .port] s ((s.putLine l x).restartLine l) := by
  have rests : (s.putLine l x).restartLine l = (s.putLine l { x.atRest with state := x.state }).setLineState l
      (if x.settings.enable then .dark else .disabled) := by
    rw [State.restartLine, State.updLine_putLine, State.putLine_lines]
    rfl
  rw [rests]
  refine toLineState (x := { x.atRest with state := x.state }) (fun h => ?_) fun _ _ => atRest_receiving x
  exact atRest_ok (ok h).1 (ok h).2

theorem restartLine (l : Fin 8) (s : State) : Works [.line, .port] s (s.restartLine l) := by
  have rests := rest (l := l) (x := s.lines[l]) (s := s) fun ok => by
    obtain ⟨body, -⟩ := Line.ok_iff.1 ok
    exact ⟨body.quietLow, body.quietHigh⟩
  rwa [State.putLine_self] at rests

theorem setLine {rec : LineSettings} (low : 1 ≤ rec.quietMs) (high : rec.quietMs ≤ 10000) :
    Works [.line, .port] s (s.setLine l rec) := by
  rw [State.setLine, State.updLine_eq]
  refine .ite (fun same => ?_) fun _ => rest fun _ => ⟨low, high⟩
  refine mono (K := [.line]) (putLine (fun ok => ?_) fun _ still => still) (by simp)
  obtain ⟨body, ready⟩ := Line.ok_iff.1 ok
  exact Line.ok_iff.2 ⟨⟨same ▸ body.enable, low, high, body.lock, body.quiet, body.single, body.closed⟩, ready⟩

theorem writeLine (p : Fin 3) (line enable : Nat) (comp : BitVec 16) (quietMs : Nat) (s : State) :
    Works [.line, .port] s (s.writeLine p line enable comp quietMs).1 := by
  unfold State.writeLine
  split
  · exact .refl
  · split
    · refine (setLine ?_ ?_).trans ((notifyAll _ _).mono (by simp))
      · exact Nat.le_max_left ..
      · exact Nat.max_le.2 ⟨by decide, Nat.min_le_left ..⟩
    · exact .refl

theorem resetLineByPin (l : Fin 8) (s : State) : Works [.line, .port] s (s.resetLineByPin l) := by
  refine (restartLine l s).trans ?_
  rw [State.resetLineByPin, State.updLine_eq]
  exact mono (K := [.line]) (putLine (fun ok => ok) fun _ still => still) (by simp)

end Works

end Sys2Proof.Machine

/-! PROOF. Actions on the marker inputs and on the interpolators (03, 07). -/

namespace Sys2Proof.Machine

namespace Works
variable {m : Fin 4} {s : State}

/-! ## Marker inputs (07) -/

theorem putMarker {y : Marker} (ok : s.markers[m].Ok → y.Ok) : Works [.marker] s (s.putMarker m y) := by
  refine .one ⟨rfl, fun k => ?_⟩
  change _ → (s.updMarker m fun _ => y).markers[k].Ok
  rw [State.updMarker_get]
  by_cases same : k = m
  · rw [if_pos same, same]
    exact ok
  · rw [if_neg same]
    exact id

theorem pendMarker (m : Fin 4) (s : State) : Works [.pending] s { s with markerPending := s.pendMarker m } := by
  refine .one ⟨rfl, fun p k small => ?_⟩
  have get : (s.pendMarker m)[p] = if s.ports[p].state = .down then s.markerPending[p]
      else s.markerPending[p].set m (pend s.markerPending[p][m]) := by
    match p with
    | 0 | 1 | 2 => rfl
  change (s.pendMarker m)[p][k] ≤ 255
  rw [get]
  split
  · exact small
  · rw [set_get]
    split
    · exact Nat.min_le_right ..
    · exact small

/-- An edge is accepted (07 R140). -/
theorem accept (m : Fin 4) (d : Direction) (st : Stamp) (s : State) :
    Works [.marker, .pending, .port, .markerOut] s (s.accept m d st) := by
  obtain ⟨r, hr⟩ : ∃ r, r = s.markerRecord m d st := ⟨_, rfl⟩
  have logged : Works [.marker] s (s.putMarker m { s.markers[m] with
      count := r.count, log := (r :: s.markers[m].log).take 4 }) :=
    putMarker fun ⟨_, waiting, off, candidate⟩ => ⟨List.length_take_le 4 _, waiting, off, candidate⟩
  have told (u : State) : Works [.port, .markerOut] u
      ((u.mapPorts fun _ q => q.attend markerCondition).handFromMarkers
        { record := .marker r, ports := s.markerSubscribers m }) :=
    ((mapPorts fun p => Port.changes_attend _ _).mono (by simp)).trans ((fromMarkers _ _).mono (by simp))
  rw [State.accept, ← hr]
  exact ((logged.mono (by simp)).trans ((pendMarker m (s.putMarker m _)).mono (by simp))).trans ((told _).mono (by simp))

theorem filtered_ok {y : Marker} (d : Direction) (edge tick : Nat) (h : y.Ok) (on : y.settings.select ≠ .off)
    (room : y.waiting.length < 14) : (y.filtered d edge tick).Ok := by
  obtain ⟨log, waiting, off, candidate⟩ := h
  rw [Marker.filtered]
  by_cases same : edgeLevel d = y.qualified
  · rw [if_pos same]
    split
    · exact ⟨log, waiting, fun _ => rfl, nofun⟩
    · exact ⟨log, waiting, off, candidate⟩
  rw [if_neg same]
  split
  · exact ⟨log, waiting, off, candidate⟩
  next free =>
  have none : y.candidate = none := Option.not_isSome_iff_eq_none.1 free
  split
  · refine ⟨log, ?_, fun _ => none, by rw [none]; nofun⟩
    rw [List.length_append]
    split <;> simp only [List.length_singleton, List.length_nil] <;> omega
  · refine ⟨log, waiting, fun no => absurd no on, fun c hc => ?_⟩
    rw [← Option.some.inj hc]
    exact same

theorem rawEdge (m : Fin 4) (d : Direction) (s : State) : Works [.marker, .count, .interp] s (s.rawEdge m d) := by
  refine .ite (fun _ => .refl) fun new => .ite (fun _ => ?_) fun run => .ite (fun _ => .refl) fun room => ?_
  · exact mono (K := [.marker]) (putMarker fun ok => ok) (by simp)
  rw [not_or, Nat.not_le, Nat.not_le] at room
  obtain ⟨u, hu⟩ : ∃ u, u = { s.markers[m] with level := edgeLevel d, rawSeen := s.markers[m].rawSeen + 1 } := ⟨_, rfl⟩
  have same : s.markers[m].Ok → u.Ok := fun ok => by rw [hu]; exact ok
  have settings : u.settings = s.markers[m].settings := by rw [hu]
  have seen : (s.updMarker m fun y => { y with level := edgeLevel d, rawSeen := y.rawSeen + 1 }) = s.putMarker m u := by
    rw [State.updMarker_eq, hu]
  dsimp only
  rw [seen]
  refine .ite (fun off => ?_) fun on => ?_
  · rw [State.updMarker_putMarker]
    refine mono (K := [.marker]) (putMarker fun ok => ?_) (by simp)
    obtain ⟨log, waiting, no, -⟩ := same ok
    have none := no (settings ▸ off)
    exact ⟨log, waiting, no, by rw [none]; nofun⟩
  · rw [State.filterEdge_putMarker]
    refine Works.trans (t := if u.settings.select.names d then s.present (.marker m) else s) ?_ ?_
    · exact .ite (fun _ => (present _ _).mono (by simp)) fun _ => .refl
    · refine mono (K := [.marker]) (putMarker fun ok => ?_) (by simp)
      refine filtered_ok d _ _ (same ?_) (settings ▸ on) (by rw [hu]; exact room.2)
      split at ok <;> exact ok

theorem qualify (m : Fin 4) (s : State) : Works [.marker, .pending, .port, .markerOut] s (s.qualify m) := by
  unfold State.qualify
  split
  · exact .refl
  · next c hc =>
    refine .ite (fun _ => ?_) fun _ => .refl
    have changed : Works [.marker] s (s.updMarker m fun y => { y with candidate := none, qualified := edgeLevel c.dir }) :=
      putMarker fun ⟨log, waiting, _, _⟩ => ⟨log, waiting, fun _ => rfl, nofun⟩
    dsimp only
    split
    · exact (changed.mono (by simp)).trans (accept ..)
    · exact changed.mono (by simp)

theorem acceptFront (m : Fin 4) (s : State) : Works [.marker, .pending, .port, .markerOut] s (s.acceptFront m) := by
  unfold State.acceptFront
  split
  · exact .refl
  · next w ws front =>
    split
    · exact .refl
    · refine Works.trans ?_ (accept ..)
      refine mono (K := [.marker]) (putMarker fun ⟨log, waiting, off, candidate⟩ => ⟨log, ?_, off, candidate⟩) (by simp)
      rw [front, List.length_cons] at waiting
      exact Nat.le_of_succ_le waiting

theorem markerEdge (m : Fin 4) (edge : Nat) (r : Reading) (off : Nat) (coarse : Bool) (s : State) :
    Works [.marker, .pending, .port, .markerOut] s (s.markerEdge m edge r off coarse) := by
  refine Works.trans (mono (K := [.marker]) (putMarker fun ⟨log, waiting, off, candidate⟩ => ⟨log, ?_, fun no => ?_, ?_⟩)
    (by simp)) (acceptFront m _)
  · exact (List.length_map ..).trans_le waiting
  · dsimp only
    rw [off no]
    rfl
  · intro c hc
    obtain ⟨k, hk, rfl⟩ := Option.map_eq_some_iff.1 hc
    split <;> exact candidate k hk

theorem setMarker (m : Fin 4) (rec : MarkerSettings) (s : State) : Works [.marker] s (s.setMarker m rec) := by
  refine putMarker fun ⟨log, waiting, off, candidate⟩ => ?_
  dsimp only
  split
  · next same => exact ⟨log, waiting, fun no => off (same.1.trans no), candidate⟩
  · exact ⟨log, waiting, fun _ => rfl, nofun⟩

theorem writeMarker (p : Fin 3) (input select width : Nat) (comp : BitVec 16) (s : State) :
    Works [.marker, .port] s (s.writeMarker p input select width comp).1 := by
  unfold State.writeMarker
  split
  · split
    · exact ((setMarker ..).mono (by simp)).trans ((notifyAll _ _).mono (by simp))
    · exact .refl
  · exact .refl

/-! ## Interpolators (03) -/

/-- What handing over an edge may write. -/
abbrev edgeBanks : List Bank := [.clock, .port, .reading, .line, .arrival, .marker, .pending, .markerOut]

theorem handEdge (i : Input) (c : Capture) (off : Nat) (coarse : Bool) (s : State) :
    Works edgeBanks s (s.handEdge i c off coarse) := by
  cases i with
  | line l => exact (lineEdge ..).mono (by simp)
  | marker m => exact (markerEdge ..).mono (by simp)
  | ref => exact (takePulse ..).mono (by simp)

section
variable {K : List Bank} {i : Input}
  (hands : ∀ (c : Capture) (off : Nat) (coarse : Bool) (u : State), Works K u (u.handEdge i c off coarse))
include hands

theorem endConversion_of (code : Fin 32) (s : State) : Works (.interp :: K) s (s.endConversion i code) := by
  unfold State.endConversion
  split
  · exact .refl
  · next c hc =>
    refine .ite (fun _ => ?_) fun _ => .refl
    have ended : Works [.interp] s (s.updInterp i fun x => { x with conv := none, lastEnd := some s.tick }) :=
      updInterp (fun ⟨_, coarse, table, _, collection, sample⟩ => ⟨.inl rfl, coarse, table, nofun, collection, sample⟩)
        fun _ ⟨_, coarse⟩ => ⟨nofun, coarse⟩
    dsimp only
    split <;> exact (ended.mono (by simp)).trans ((hands ..).mono (List.subset_cons_self ..))

theorem handCoarse_of (s : State) : Works (.interp :: K) s (s.handCoarse i) := by
  unfold State.handCoarse
  dsimp only
  split
  · exact .refl
  · next c cs front =>
    refine .ite (fun _ => ?_) fun _ => .refl
    refine Works.trans (mono (K := [.interp]) (updInterp ?_ ?_) (by simp)) ((hands ..).mono (List.subset_cons_self ..))
    · rintro ⟨one, coarse, rest⟩
      rw [front, List.length_cons] at coarse
      exact ⟨one, Nat.le_of_succ_le coarse, rest⟩
    · rintro - ⟨conv, coarse⟩
      rw [front] at coarse
      exact ⟨conv, fun k mem => coarse k (List.mem_cons_of_mem c mem)⟩

theorem dueEdges_of (s : State) : Works (.count :: .interp :: K) s (s.dueEdges i) := by
  have converted : Works (.count :: .interp :: K) s (s.dueConversion i) :=
    .ite (fun _ => ((count s s.edgeSeq (s.free + 1)).mono (by simp)).trans
      ((endConversion_of hands ..).mono (List.subset_cons_self ..))) fun _ => .refl
  exact converted.trans (times (fun u => (handCoarse_of hands u).mono (List.subset_cons_self ..)) _ _)

end

theorem endConversion (i : Input) (code : Fin 32) (s : State) :
    Works (.interp :: edgeBanks) s (s.endConversion i code) := endConversion_of (handEdge i) code s

theorem handCoarse (i : Input) (s : State) : Works (.interp :: edgeBanks) s (s.handCoarse i) := handCoarse_of (handEdge i) s

theorem dueConversion (i : Input) (s : State) : Works (.count :: .interp :: edgeBanks) s (s.dueConversion i) :=
  .ite (fun _ => ((count s s.edgeSeq (s.free + 1)).mono (by simp)).trans ((endConversion ..).mono (by simp))) fun _ => .refl

theorem dueEdges (i : Input) (s : State) : Works (.count :: .interp :: edgeBanks) s (s.dueEdges i) := dueEdges_of (handEdge i) s

theorem makeRoom_of {K : List Bank} {i : Input} (due : ∀ u : State, Works K u (u.dueEdges i)) (s : State) :
    Works K s (s.makeRoom i) := .ite (fun _ => .refl) fun _ => due s

theorem makeRoom (i : Input) (s : State) : Works (.count :: .interp :: edgeBanks) s (s.makeRoom i) := makeRoom_of (dueEdges i) s

/-- An edge captured where there is room for it among the coarse edges (03 R58). -/
theorem captureNow {i : Input} {s : State} {edge : Nat} {presented : List Nat} (room : (s.interp i).coarse.length < 14) :
    Works [.interp] s (s.updInterp i fun y => ({ y with presented := presented } : Interp).capture s.tick s.reading edge) := by
  refine updInterp ?_ ?_
  · rintro ⟨one, coarse, table, conv, collection, sample⟩
    rw [Interp.capture]
    dsimp only
    split
    · refine ⟨.inr rfl, ?_, table, conv, collection, nofun⟩
      rw [List.length_append]
      exact room
    · exact ⟨.inr rfl, coarse, table, by simpa using table, collection, nofun⟩
  · rintro ⟨value, -⟩ ⟨conv, coarse⟩
    have reading := State.reading_ok value
    rw [Interp.capture]
    dsimp only
    split
    · refine ⟨conv, fun c mem => ?_⟩
      obtain mem | mem := List.mem_append.1 mem
      · exact coarse c mem
      · rw [List.mem_singleton.1 mem]
        exact reading
    · exact ⟨by simpa using reading, coarse⟩

theorem captureEdge_of {K : List Bank} {i : Input} (interp : Bank.interp ∈ K) (due : ∀ u : State, Works K u (u.dueEdges i))
    (s : State) : Works K s (s.captureEdge i) := by
  have sub : [Bank.interp] ⊆ K := List.cons_subset.2 ⟨interp, List.nil_subset K⟩
  refine .ite (fun h => ?_) fun _ => .refl
  have room : ((s.makeRoom i).interp i).coarse.length < 14 := of_decide_eq_true (Bool.and_eq_true _ _ ▸ h).2
  have roomy := makeRoom_of due s
  dsimp only
  split
  · exact roomy.trans ((captureNow (presented := ((s.makeRoom .ref).interp .ref).presented) room).mono sub)
  · exact .refl
  · exact roomy.trans ((captureNow room).mono sub)

theorem captureEdge (i : Input) (s : State) : Works (.count :: .interp :: edgeBanks) s (s.captureEdge i) :=
  captureEdge_of (by simp) (dueEdges i) s

theorem markerRaw (m : Fin 4) (d : Direction) (s : State) :
    Works (.count :: .interp :: edgeBanks) s (s.markerRaw m d) :=
  .ite (fun _ => (dueEdges _ s).trans ((rawEdge ..).mono (by simp))) fun _ => (rawEdge ..).mono (by simp)

theorem dueCaptures (i : Input) (s : State) : Works (.count :: .interp :: edgeBanks) s (s.dueCaptures i) :=
  .ite (fun _ => .refl) fun _ => times (fun u => captureEdge i u) _ _

/-! ## Calibration (03 R64, R65) -/

theorem internalEdge (i : Input) (s : State) : Works [.interp] s (s.internalEdge i) := by
  refine .ite (fun h => ?_) fun _ => .refl
  rw [Bool.and_eq_true, Bool.and_eq_true, beq_iff_eq, Interp.converter_idle] at h
  obtain ⟨⟨-, conv, -⟩, collection⟩ := h
  exact updInterp (fun ⟨_, coarse, table, lat, bins, _⟩ => ⟨.inl conv, coarse, table, lat, bins, fun _ => collection⟩)
    fun _ => id

/-- A sample is one more in its bin. -/
theorem binSum_count (k : Fin 32) (c : Collection) : binSum (c.count k).bins = binSum c.bins + 1 := by
  obtain ⟨n, hn⟩ := k
  have len : n < c.bins.toList.length := by simpa using hn
  have split := List.sum_set c.bins.toList n (c.bins[n] + 1)
  have whole := List.sum_set c.bins.toList n c.bins[n]
  have same : c.bins.toList.set n c.bins[n] = c.bins.toList := by rw [← Vector.toList_set (h := hn), Vector.set_getElem_self]
  rw [same, if_pos len] at whole
  rw [if_pos len] at split
  rw [binSum, binSum, Collection.count]
  change (c.bins.set n (c.bins[n] + 1)).toList.sum = _
  rw [Vector.toList_set]
  omega

theorem endSample (i : Input) (code : Fin 32) (s : State) : Works [.interp] s (s.endSample i code) := by
  unfold State.endSample
  split
  · exact .refl
  · refine .ite (fun _ => ?_) fun _ => .refl
    refine updInterp ?_ fun _ => ?_
    · rintro ⟨-, coarse, table, lat, collection, -⟩
      split
      · next none => exact ⟨.inr rfl, coarse, table, lat, collection, nofun⟩
      · next c hc =>
        obtain ⟨sum, few⟩ := collection c hc
        have more := binSum_count code c
        have samples : (c.count code).samples = c.samples + 1 := rfl
        split
        · next full =>
          refine ⟨.inr rfl, coarse, fun t ht => ?_, lat, nofun, nofun⟩
          rw [← Option.some.inj ht]
          omega
        · next fewer =>
          refine ⟨.inr rfl, coarse, table, lat, fun t ht => ?_, nofun⟩
          rw [← Option.some.inj ht]
          omega
    · split
      · exact id
      · split <;> exact id

theorem dueSample (i : Input) (s : State) : Works [.count, .interp] s (s.dueSample i) :=
  .ite (fun _ => ((count s s.edgeSeq (s.free + 1)).mono (by simp)).trans ((endSample ..).mono (by simp))) fun _ => .refl

theorem startCollection_ok {x : Interp} (h : x.Ok) : x.startCollection.Ok := by
  rw [Interp.startCollection_eq]
  split
  · obtain ⟨one, coarse, table, lat, -, -⟩ := h
    refine ⟨one, coarse, table, lat, fun c hc => ?_, fun _ => rfl⟩
    rw [← Option.some.inj hc]
    exact ⟨show binSum _ = 0 by decide, show 0 < 65536 by decide⟩
  · exact h

theorem startCollection_readings {x : Interp} (h : x.ReadingsOk) : x.startCollection.ReadingsOk := by
  rw [Interp.startCollection_eq]
  split <;> exact h

theorem calTimer (timer : Option Nat) (s : State) : Works [.cal] s { s with calExpiry := timer } := .one ⟨rfl, trivial⟩

theorem calibrationExpiry (s : State) : Works [.interp, .cal] s s.calibrationExpiry := by
  refine .ite (fun _ => ?_) fun _ => .refl
  refine Works.trans (t := s.mapInterps Interp.startCollection) ?_ ((calTimer _ _).mono (by simp))
  refine mono (K := [.interp]) (.one ⟨rfl, fun k => ?_⟩) (by simp)
  rw [State.mapInterps_get]
  exact ⟨startCollection_ok, fun _ => startCollection_readings⟩

end Works

end Sys2Proof.Machine

/-! PROOF. Actions of the engine on the channel table, and the windows it keeps (05, 06). -/

namespace Sys2Proof.Machine

/-! ## Windows (06 R108, R110, R123) -/

theorem PairWindow.empty_ok : PairWindow.empty.Ok := by
  refine ⟨List.length_replicate, by decide, fun _ => rfl, nofun, ?_, rfl⟩
  rw [PairWindow.hasHole_iff (Nat.zero_le _)]
  exact iff_of_false Bool.false_ne_true fun ⟨_, below, _⟩ => Nat.not_lt_zero _ below

/-- A deadline that follows the holes is armed exactly while there is one. -/
theorem PairWindow.rearm_ok {w : PairWindow} (tick : Nat) (st : Stamp) (gapUs : Nat) (len : w.slots.length = 64)
    (stale : w.stale < 64) (base : w.base.isSome) (highest : w.highest.isSome) (top : w.top < 64)
    (armed : w.armedAt.isSome = w.deadline.isSome) : (w.rearm tick st gapUs).Ok := by
  refine ⟨len, stale, fun none => ?_, fun _ => ⟨highest, top⟩, ?_, ?_⟩
  · rw [show (w.rearm tick st gapUs).base = w.base from rfl] at none
    rw [none] at base
    cases base
  · change (if w.hasHole then some (w.deadline.getD (st.time.addNs (gapUs * 1000))) else none).isSome = true ↔ w.hasHole = true
    cases w.hasHole <;> simp
  · change (if w.hasHole then (if w.deadline.isSome then w.armedAt else some tick) else none).isSome
      = (if w.hasHole then some (w.deadline.getD (st.time.addNs (gapUs * 1000))) else none).isSome
    cases w.hasHole with
    | false => rfl
    | true => cases h : w.deadline.isSome <;> simp [armed, h]

theorem baseWindow_ok (line : Fin 8) (st : Stamp) (x : BitVec 32) {c : Nat} (one : 1 ≤ c) (most : c ≤ 64) :
    (baseWindow line st x c).Ok := by
  have top : (baseWindow line st x c).top = c - 1 := by
    rw [PairWindow.top_eq (b := x) (h := x + BitVec.ofNat 32 (c - 1)) rfl rfl,
      offset_last (b := x) (x := x) (d := 0) (by simp) one (by omega), Nat.zero_add]
  have len : (baseWindow line st x c).slots.length = 64 := by
    rw [baseWindow, List.length_append, List.length_replicate, List.length_replicate]
    omega
  refine ⟨len, show 0 < 64 by decide, nofun, fun _ => ⟨rfl, by omega⟩, ?_, rfl⟩
  rw [PairWindow.hasHole_iff (by omega)]
  refine iff_of_false Bool.false_ne_true fun ⟨j, below, vacant⟩ => ?_
  rw [baseWindow, List.getD_eq_getElem?_getD, List.getElem?_append_left (by rw [List.length_replicate]; omega),
    List.getElem?_replicate, if_pos (by omega)] at vacant
  cases vacant

section
variable {tick i : Nat} {a : Arrival} {x b : BitVec 32} {count : Option Nat} {e : Entry} {d n : Nat} {force : Bool}

theorem Entry.place_ok (len : e.win.slots.length = 64) (base : e.win.base = some b)
    (fits : d + rangeCount count ≤ 64) (at_d : (x - b).toNat = d)
    (known : force = true ∨ e.win.highest.isSome ∧ e.win.top < 64)
    (armed : e.win.armedAt.isSome = e.win.deadline.isSome) : (e.place tick i a x count d force).1.win.Ok := by
  obtain ⟨one, most⟩ := rangeCount_bounds count
  obtain ⟨w, hw⟩ : ∃ w : PairWindow, w = { e.win with
      slots := markRange a.line a.stamp d (rangeCount count) (classify a.line a.stamp (e.win.slots.getD d .vacant)).slot e.win.slots
      highest := (if force || e.win.highest.isNone || e.win.top < d + rangeCount count - 1 then
        some (x + BitVec.ofNat 32 (rangeCount count - 1)) else e.win.highest)
      stale := 0 } := ⟨_, rfl⟩
  have placed : (e.place tick i a x count d force).1.win = w.rearm tick a.stamp e.gapUs := by rw [hw]; rfl
  have base' : w.base = some b := by rw [hw]; exact base
  rw [placed]
  have inside : w.highest.isSome ∧ w.top < 64 := by
    by_cases new : (force || e.win.highest.isNone || decide (e.win.top < d + rangeCount count - 1)) = true
    · have highest : w.highest = some (x + BitVec.ofNat 32 (rangeCount count - 1)) := by rw [hw]; exact if_pos new
      rw [PairWindow.top_eq base' highest, offset_last at_d.symm one (by omega), highest]
      exact ⟨rfl, by omega⟩
    · have highest : w.highest = e.win.highest := by rw [hw]; exact if_neg new
      obtain force | ⟨known, top⟩ := known
      · rw [force] at new
        exact absurd rfl new
      · obtain ⟨h, known⟩ := Option.isSome_iff_exists.1 known
        rw [PairWindow.top_eq base known] at top
        rw [PairWindow.top_eq base' (highest.trans known), highest, known]
        exact ⟨rfl, top⟩
  refine PairWindow.rearm_ok tick a.stamp e.gapUs ?_ ?_ (by rw [base']; rfl) inside.1 inside.2 ?_
  · rw [hw]
    exact (markRange_length _ _ _ _ _ _ one (by omega)).trans len
  · rw [hw]
    exact show 0 < 64 by decide
  · rw [hw]
    exact armed

theorem Entry.takeSequenced_ok (h : e.win.Ok) : (e.takeSequenced tick i a x count).1.win.Ok := by
  obtain ⟨one, most⟩ := rangeCount_bounds count
  obtain ⟨len, stale, none, known, deadline, armed⟩ := h
  have fresh : (baseWindow a.line a.stamp x (rangeCount count)).Ok := baseWindow_ok _ _ _ one most
  cases base : e.win.base with
  | none => rw [Entry.takeSequenced_base base]; exact fresh
  | some b =>
    obtain ⟨highest, top⟩ := known (by rw [base]; rfl)
    by_cases ahead : (x - b).toNat < 2 ^ 31
    · rw [Entry.takeSequenced_ahead base ahead]
      by_cases fits : (x - b).toNat + rangeCount count ≤ 64
      · rw [Entry.takeAhead, if_pos fits]
        exact Entry.place_ok len base fits rfl (.inr ⟨highest, top⟩) armed
      · obtain ⟨n, hn⟩ : ∃ n, n = (x - b).toNat + rangeCount count - 64 := ⟨_, rfl⟩
        rw [Entry.takeAhead_beyond (by omega) hn]
        refine Entry.place_ok (i := i) (e := e.advanced n b) (b := b + BitVec.ofNat 32 n) ?_ rfl (by omega) ?_ (.inl rfl) armed
        · change (e.win.slots.drop n ++ List.replicate (min n 64) Slot.vacant).length = 64
          rw [List.length_append, List.length_drop, List.length_replicate, len]
          omega
        · have move : x - (b + BitVec.ofNat 32 n) = (x - b) - BitVec.ofNat 32 n := by bv_omega
          rw [move, BitVec.toNat_sub, BitVec.toNat_ofNat]
          exact advanced_offset most ahead (by omega) hn
    · rw [Entry.takeSequenced_behind base (Nat.not_lt.1 ahead), Entry.takeStale]
      dsimp only
      split
      · next more => exact ⟨len, more, fun no => absurd (base.symm.trans no) (by simp), fun _ => ⟨highest, top⟩, deadline, armed⟩
      · exact fresh

theorem Entry.take_ok {n : Nat} {bs : List Byte} (h : e.win.Ok) : (e.take tick i a n bs).1.win.Ok := by
  rw [Entry.take]
  split
  split
  · exact h
  · split
    · exact h
    · split
      · exact h
      · exact Entry.takeSequenced_ok h

theorem Entry.expire_ok (now : Stamp) (h : e.win.Ok) : (e.expire i now).1.win.Ok := by
  obtain ⟨len, stale, none, known, -, -⟩ := h
  have top : e.win.top ≤ 64 := by
    cases base : e.win.base with
    | none => rw [none base]; exact Nat.zero_le _
    | some b => exact Nat.le_of_lt (known (by rw [base]; rfl)).2
  refine ⟨?_, stale, fun no => ?_, known, ?_, rfl⟩
  · rw [Entry.expire]
    dsimp only
    rw [List.length_append, List.length_map, ← List.length_append, List.take_append_drop, len]
  · have empty := none no
    rw [Entry.expire, empty]
    rfl
  · rw [PairWindow.hasHole_iff (w := (e.expire i now).1.win) (by
      change e.win.top ≤ ((e.win.slots.take e.win.top).map loseVacant ++ e.win.slots.drop e.win.top).length
      rw [List.length_append, List.length_map, ← List.length_append, List.take_append_drop, len]
      exact top)]
    refine iff_of_false Bool.false_ne_true fun ⟨j, below, vacant⟩ => ?_
    have below : j < e.win.top := below
    change ((e.win.slots.take e.win.top).map loseVacant ++ e.win.slots.drop e.win.top).getD j .vacant = .vacant at vacant
    rw [expire_getD (by omega)] at vacant
    split at vacant
    · cases vacant
    · next still => exact still ⟨below, vacant⟩

/-! ## The channel table (05 R93) -/

/-- An entry that another replaces: its key and its gap time stay, and its window stays good. -/
structure Entry.Refines (e e' : Entry) : Prop where
  scope : e'.scope = e.scope
  addr : e'.addr = e.addr
  port : e'.port = e.port
  gap : e'.gapUs = e.gapUs
  win : e.win.Ok → e'.win.Ok

theorem Entry.Refines.refl (e : Entry) : e.Refines e := ⟨rfl, rfl, rfl, rfl, id⟩

theorem Entry.Keeps.refines {e' : Entry} (keeps : e.Keeps e') (win : e.win.Ok → e'.win.Ok) : e.Refines e' := by
  rw [keeps]
  exact ⟨rfl, rfl, rfl, rfl, win⟩

theorem Entry.settled_ok (s : State) (h : e.win.Ok) : (e.settled i s).1.win.Ok := by
  rw [Entry.settled]
  split
  · exact Entry.expire_ok _ h
  · exact h

theorem Entry.settled_refines (i : Nat) (s : State) (e : Entry) : e.Refines (e.settled i s).1 :=
  (e.settled_keeps s).refines (Entry.settled_ok s)

end

/-- In a table with rising indexes every two entries stand in one order. -/
theorem pairwise_of_sorted {R : Nat × Entry → Nat × Entry → Prop} {t : List (Nat × Entry)}
    (sorted : (t.map Prod.fst).Pairwise (· < ·)) : t.Pairwise R ↔ ∀ q ∈ t, ∀ r ∈ t, q.1 < r.1 → R q r := by
  rw [List.pairwise_map] at sorted
  constructor
  · intro pairs
    induction t with
    | nil => nofun
    | cons x t ih =>
      obtain ⟨above, sorted⟩ := List.pairwise_cons.1 sorted
      obtain ⟨first, pairs⟩ := List.pairwise_cons.1 pairs
      intro q hq r hr lt
      obtain rfl | hq := List.mem_cons.1 hq
      · obtain rfl | hr := List.mem_cons.1 hr
        · exact absurd lt (Nat.lt_irrefl _)
        · exact first r hr
      · obtain same | hr := List.mem_cons.1 hr
        · rw [same] at lt
          exact absurd (above q hq) (Nat.not_lt.2 (Nat.le_of_lt lt))
        · exact ih sorted pairs q hq r hr lt
  · exact fun all => sorted.imp_of_mem fun hq hr lt => all _ hq _ hr lt

/-- A table whose entries replace those of another at their indexes. -/
def TableRefines (t t' : List (Nat × Entry)) : Prop :=
  (t'.map Prod.fst).Pairwise (· < ·) ∧ ∀ q' ∈ t', ∃ q ∈ t, q.1 = q'.1 ∧ q.2.Refines q'.2

theorem TableRefines.refl {t : List (Nat × Entry)} (sorted : (t.map Prod.fst).Pairwise (· < ·)) : TableRefines t t :=
  ⟨sorted, fun q mem => ⟨q, mem, rfl, .refl q.2⟩⟩

theorem TableRefines.set {t t' : List (Nat × Entry)} {i : Nat} {e e' : Entry} (h : TableRefines t t') (mem : (i, e) ∈ t)
    (refines : e.Refines e') : TableRefines t (tableSet i e' t') := by
  obtain ⟨sorted, olds⟩ := h
  refine ⟨tableSet_sorted i e' t' sorted, fun q' hq => ?_⟩
  obtain rfl | ⟨hq, -⟩ := (mem_tableSet i e' sorted q').1 hq
  · exact ⟨(i, e), mem, rfl, refines⟩
  · exact olds q' hq

theorem State.TableOk.refine {s : State} {t : List (Nat × Entry)} (h : s.TableOk) (refines : TableRefines s.channels t) :
    ({ s with channels := t } : State).TableOk := by
  obtain ⟨sorted, each, keys⟩ := h
  obtain ⟨sorted', olds⟩ := refines
  rw [pairwise_of_sorted sorted] at keys
  refine ⟨sorted', fun q' hq => ?_, (pairwise_of_sorted sorted').2 fun q' hq r' hr lt => ?_⟩
  · obtain ⟨q, mem, index, refines⟩ := olds q' hq
    obtain ⟨below, low, high, fits, win⟩ := each q mem
    rw [← index, refines.gap, refines.scope]
    exact ⟨below, low, high, fits, refines.win win⟩
  · obtain ⟨q, mem, index, refines⟩ := olds q' hq
    obtain ⟨r, memR, indexR, refinesR⟩ := olds r' hr
    rw [Entry.hasKey, refinesR.scope, refinesR.addr, refinesR.port, refines.scope, refines.addr, refines.port]
    exact keys q mem r memR (by rw [index, indexR]; exact lt)

namespace Works
variable {s : State}

/-- The entries of the table change in their places. -/
theorem table {t : List (Nat × Entry)} (refines : s.TableOk → TableRefines s.channels t) :
    Works [.table] s { s with channels := t } := .one ⟨rfl, fun ok => ok.refine (refines ok)⟩

theorem tableMap {f : Nat → Entry → Entry} (h : ∀ i e, Entry.Refines e (f i e)) (s : State) :
    Works [.table] s { s with channels := tableMap f s.channels } := by
  refine table fun ok => ⟨by rw [tableMap_fst]; exact ok.1, fun q' hq => ?_⟩
  obtain ⟨q, mem, rfl⟩ := List.mem_map.1 hq
  exact ⟨q, mem, rfl, h q.1 q.2⟩

/-- The engine writes back an entry that it holds. -/
theorem commitEntry {i : Nat} {r : Entry × List Record} (old : s.TableOk → ∃ e, (i, e) ∈ s.channels ∧ e.Refines r.1) :
    Works [.table, .engineOut] s (s.commitEntry i r) := by
  refine Works.trans (mono (K := [.table]) (table fun ok => ?_) (by simp)) ((fromEngine _ _).mono (by simp))
  obtain ⟨e, mem, refines⟩ := old ok
  exact (TableRefines.refl ok.1).set mem refines

end Works

/-! ## Expiries before an event of some entries (06 R122) -/

/-- What each step of a sweep keeps, the sweep keeps. -/
theorem sweep_preserves {α σ : Type} {f : α → σ → σ} {P : σ → Prop} {xs : List α} {s : σ} (hs : P s)
    (step : ∀ x ∈ xs, ∀ t, P t → P (f x t)) : P (sweep f xs s) := by
  induction xs generalizing s with
  | nil => exact hs
  | cons x xs ih =>
    obtain ⟨first, rest⟩ := List.forall_mem_cons.1 step
    exact ih (first s hs) rest

/-- Of a state the table and the records of the engine have changed. -/
def State.EngineTold (s u : State) : Prop :=
  u = { s with channels := u.channels, pool := { s.pool with fromEngine := u.pool.fromEngine } }

theorem State.EngineTold.commitEntry {s u : State} (h : s.EngineTold u) (i : Nat) (r : Entry × List Record) :
    s.EngineTold (u.commitEntry i r) := by
  rw [State.EngineTold] at h
  rw [h]
  rfl

theorem State.overdue_told (concerns : Nat → Bool) (s : State) : s.EngineTold (s.overdue concerns) := by
  refine sweep_preserves (P := s.EngineTold) rfl fun q _ u hu => ?_
  split
  · exact hu.commitEntry ..
  · exact hu

theorem State.overdue_refines (concerns : Nat → Bool) {s : State} (ok : s.TableOk) :
    TableRefines s.channels (s.overdue concerns).channels := by
  refine sweep_preserves (P := fun u : State => TableRefines s.channels u.channels) (.refl ok.1) fun q mem u hu => ?_
  split
  · exact hu.set mem (q.2.settled_refines q.1 s)
  · exact hu

namespace Works

theorem overdue (concerns : Nat → Bool) (s : State) : Works [.table, .engineOut] s (s.overdue concerns) := by
  have told := State.overdue_told concerns s
  rw [State.EngineTold] at told
  rw [told]
  exact Works.trans (mono (K := [.table]) (table (State.overdue_refines concerns)) (by simp)) ((fromEngine _ _).mono (by simp))

/-! ## Arrivals and gap deadlines -/

theorem takeUnmapped (a : Arrival) (key : Option Key) (cause : UnmappedCause) (s : State) :
    Works [.line, .engineOut] s (s.takeUnmapped a key cause) := by
  have counted : Works [.line] s (s.updLine a.line fun x => { x with unmapped := satInc x.unmapped }) :=
    putLine (fun ok => ok) fun _ still => still
  refine .ite (fun _ => ?_) fun _ => counted.mono (by simp)
  exact (counted.mono (by simp)).trans ((fromEngine _ _).mono (by simp))

theorem findKey_mem {s : State} {sc : Scope} {k : Key} {i : Nat} {e : Entry} (h : s.findKey sc k = some (i, e)) :
    (i, e) ∈ s.channels := List.mem_of_find?_eq_some h

theorem engineTake (a : Arrival) (s : State) : Works [.line, .table, .engineOut] s (s.engineTake a) := by
  unfold State.engineTake
  split
  · exact (takeUnmapped ..).mono (by simp)
  · split
    · exact (takeUnmapped ..).mono (by simp)
    · next i e found =>
      refine (commitEntry fun _ => ⟨e, findKey_mem found, ?_⟩).mono (by simp)
      exact ((e.settled_keeps s).trans (Entry.take_keeps _)).refines fun h => Entry.take_ok (Entry.settled_ok s h)

theorem arrivalTake (l : Fin 8) (s : State) : Works [.arrival, .line, .table, .engineOut] s (s.arrivalTake l) := by
  unfold State.arrivalTake
  refine .ite (fun _ => ?_) fun _ => .refl
  split
  · exact .refl
  · exact ((arrivals _ _).mono (by simp)).trans ((engineTake ..).mono (by simp))

theorem gapExpiry (i : Nat) (s : State) : Works [.table, .engineOut] s (s.gapExpiry i) := by
  unfold State.gapExpiry
  split
  · exact .refl
  · next e entry =>
    refine .ite (fun _ => commitEntry fun ok => ⟨e, (tableGet_iff i e ok.1).1 entry, ?_⟩) fun _ => .refl
    exact (e.expire_keeps _).refines (Entry.expire_ok _)

end Works

/-! ## Commands of the engine -/

/-- An entry may stand at an index of a table: its numbers are in range, its scope fits, and no other entry holds its
key (05 R93, R96). -/
structure State.Admits (s : State) (i : Nat) (e : Entry) : Prop where
  below : i < 512
  low : 1 ≤ e.gapUs
  high : e.gapUs ≤ 10000
  fits : s.scopeFits e.scope = true
  win : e.win.Ok
  alone : ∀ q ∈ s.channels, q.1 ≠ i → q.2.hasKey e.scope e.addr e.port = false

theorem Entry.hasKey_comm (e f : Entry) : e.hasKey f.scope f.addr f.port = f.hasKey e.scope e.addr e.port := by
  rw [Entry.hasKey, Entry.hasKey, BEq.comm (a := e.scope), BEq.comm (a := e.addr), BEq.comm (a := e.port)]

theorem Entry.Refines.hasKey {e e' : Entry} (h : e.Refines e') (sc : Scope) (addr : BitVec 32) (port : BitVec 16) :
    e'.hasKey sc addr port = e.hasKey sc addr port := by
  rw [Entry.hasKey, Entry.hasKey, h.scope, h.addr, h.port]

/-- An admitted entry is written into the table, whichever expiries came before (05 R97). -/
theorem State.TableOk.write {s : State} {i : Nat} {e : Entry} {t : List (Nat × Entry)} (ok : s.TableOk)
    (refines : TableRefines s.channels t) (admits : s.Admits i e) :
    ({ s with channels := tableSet i e t } : State).TableOk := by
  obtain ⟨sorted, each, keys⟩ := ok.refine refines
  obtain ⟨sorted', olds⟩ := refines
  have mem := mem_tableSet i e sorted'
  have alone : ∀ q ∈ t, q.1 ≠ i → q.2.hasKey e.scope e.addr e.port = false := fun q' hq other => by
    obtain ⟨q, hq, index, same⟩ := olds q' hq
    rw [same.hasKey]
    exact admits.alone q hq (index ▸ other)
  have rising := tableSet_sorted i e t sorted'
  refine ⟨rising, fun q hq => ?_, (pairwise_of_sorted rising).2 fun q hq r hr lt => ?_⟩
  · obtain rfl | ⟨hq, -⟩ := (mem q).1 hq
    · exact ⟨admits.below, admits.low, admits.high, admits.fits, admits.win⟩
    · exact each q hq
  · obtain rfl | ⟨hq, notQ⟩ := (mem q).1 hq
    · obtain rfl | ⟨hr, notR⟩ := (mem r).1 hr
      · exact absurd lt (Nat.lt_irrefl _)
      · exact alone r hr notR
    · obtain rfl | ⟨hr, notR⟩ := (mem r).1 hr
      · rw [Entry.hasKey_comm]
        exact alone q hq notQ
      · exact (pairwise_of_sorted sorted').1 keys q hq r hr lt

namespace Works

theorem writeEntry {s u : State} {i : Nat} {e : Entry} (told : s.EngineTold u)
    (refines : s.TableOk → TableRefines s.channels u.channels) (admits : s.Admits i e) :
    Works [.table, .engineOut] s { u with channels := tableSet i e u.channels } := by
  rw [State.EngineTold] at told
  refine Works.trans (t := { s with channels := tableSet i e u.channels })
    (mono (K := [.table]) (one ⟨rfl, fun ok => ok.write (refines ok) admits⟩) (by simp)) ?_
  rw [told]
  exact (fromEngine _ _).mono (by simp)

theorem writeChannel (p : Fin 3) (index kind number : Nat) (addr : BitVec 32) (port : BitVec 16)
    (mode offset order countOffset gapUs : Nat) (s : State) : Works [.table, .engineOut, .port] s
      (s.writeChannel p index kind number addr port mode offset order countOffset gapUs).1 := by
  unfold State.writeChannel
  split
  · next sc f scope format =>
    split
    · next below =>
      split
      · exact .refl
      · next good =>
        rw [Bool.not_eq_true, Bool.or_eq_false_iff, Bool.not_eq_false', List.any_eq_false] at good
        obtain ⟨fits, other⟩ := good
        refine Works.trans (mono (K := [.table, .engineOut]) (writeEntry (State.overdue_told _ s) (State.overdue_refines _) ?_)
          (by simp)) ((notifyAll _ _).mono (by simp))
        obtain ⟨low, high⟩ := clampNat_bounds gapUs (show 1 ≤ 10000 by decide)
        refine ⟨below, low, high, fits, PairWindow.empty_ok, fun q hq not => ?_⟩
        have := other q hq
        rw [Bool.and_eq_true, not_and] at this
        exact Bool.eq_false_iff.2 (this (bne_iff_ne.2 not))
    · exact .refl
  · exact .refl

theorem removeChannel (p : Fin 3) (index : Nat) (s : State) :
    Works [.table, .engineOut, .port] s (s.removeChannel p index).1 := by
  unfold State.removeChannel
  split
  · refine ((overdue _ s).mono (by simp)).trans (Works.trans (mono (K := [.table]) (table fun ok => ?_) (by simp))
      ((notifyAll _ _).mono (by simp)))
    exact ⟨tableErase_sorted _ _ ok.1, fun q hq => ⟨q, List.mem_of_mem_filter hq, rfl, .refl _⟩⟩
  · exact .refl

/-- A scope that a mode leaves with a home fits it. -/
theorem scopeFits_set {s : State} {p : Fin 4} {m : PairMode} {e : Entry} (fits : s.scopeFits e.scope = true)
    (home : orphanedBy p m e = false) : ({ s with pairModes := s.pairModes.set p m } : State).scopeFits e.scope = true := by
  cases scope : e.scope with
  | pair q =>
    rw [scope] at fits
    rw [State.scopeFits_pair] at fits ⊢
    rw [set_get]
    split
    · next same =>
      cases m with
      | paired => rfl
      | independent =>
        simp [orphanedBy, scope, same] at home
    · exact fits
  | line l =>
    rw [scope] at fits
    rw [State.scopeFits_line _ (pairOf l) l rfl] at fits ⊢
    rw [set_get]
    split
    · next same =>
      cases m with
      | independent => rfl
      | paired =>
        simp [orphanedBy, scope, same] at home
    · exact fits

/-- A mode that leaves every scope with a home (05 R99). -/
theorem setMode {s : State} {p : Fin 4} {m : PairMode} (home : ∀ q ∈ s.channels, orphanedBy p m q.2 = false) :
    Works [.table] s { s with pairModes := s.pairModes.set p m } := by
  refine .one ⟨rfl, fun ⟨sorted, each, keys⟩ => ⟨sorted, fun q hq => ?_, keys⟩⟩
  obtain ⟨i, low, high, fits, win⟩ := each q hq
  exact ⟨i, low, high, scopeFits_set fits (home q hq), win⟩

theorem setPairMode (p : Fin 3) (pair mode : Nat) (s : State) : Works [.table, .port] s (s.setPairMode p pair mode).1 := by
  unfold State.setPairMode
  split
  · exact .refl
  · next m code =>
    split
    · next below =>
      split
      · exact .refl
      · next none =>
        rw [List.any_eq_true, not_exists] at none
        refine Works.trans (mono (K := [.table]) (setMode (p := ⟨pair, below⟩) (m := m) fun q hq => ?_) (by simp))
          (mono (K := [.port]) (notifyAll _ _) (by simp))
        exact Bool.eq_false_iff.2 fun orphan => none q ⟨hq, orphan⟩
    · exact .refl

theorem setLevels (p : Fin 3) (first last level : Nat) (f : Level → Level → Level) (s : State) :
    Works [.table, .engineOut] s (s.setLevels p first last level f).1 := by
  unfold State.setLevels
  split
  · exact .refl
  · split
    · exact .refl
    · refine (overdue _ s).trans (mono (K := [.table]) (tableMap (fun i e => ?_) _) (by simp))
      split <;> exact ⟨rfl, rfl, rfl, rfl, id⟩

theorem subs (unmapped : Vector (BitVec 8) 3) (markers : Vector (BitVec 4) 3) (s : State) :
    Works [.subs] s { s with unmapped := unmapped, markerSubs := markers } := .one ⟨rfl, trivial⟩

theorem setUnmapped (p : Fin 3) (set : BitVec 8) (s : State) : Works [.subs] s (s.setUnmapped p set).1 :=
  subs _ s.markerSubs s

theorem setMarkerSubs (p : Fin 3) (set : BitVec 4) (s : State) : Works [.subs] s (s.setMarkerSubs p set).1 :=
  subs s.unmapped _ s

theorem readChannel (index : Nat) (s : State) : Works [.table, .engineOut] s (s.readChannel index).1 := by
  unfold State.readChannel
  split
  · exact .refl
  · have done := overdue (· = index) s
    dsimp only
    split <;> exact done

theorem swapMarkers (p : Fin 3) (s : State) : Works [.pending] s (s.swapMarkers p).1 := clearPending p s

/-! ## Parts of a reset -/

theorem clearLevels (p : Fin 3) (s : State) : Works [.table, .engineOut, .subs] s (s.clearLevels p) := by
  have emptied (u : State) : Works [.table] u { u with
      channels := Machine.tableMap (fun _ e => { e with levels := e.levels.set p .none }) u.channels } :=
    tableMap (f := fun _ e => { e with levels := e.levels.set p .none }) (fun _ _ => ⟨rfl, rfl, rfl, rfl, id⟩) u
  refine ((overdue (fun _ => true) s).mono (by simp)).trans (((emptied _).mono (by simp)).trans ?_)
  exact mono (K := [.subs]) (one ⟨by rfl, trivial⟩) (by simp)

theorem clearMarkers (p : Fin 3) (s : State) : Works [.subs, .pending] s (s.clearMarkers p) :=
  Works.trans (mono (K := [.subs]) (subs s.unmapped (s.markerSubs.set p 0) s) (by simp)) ((clearPending p _).mono (by simp))

theorem emptyWindows (s : State) : Works [.table, .subs] s s.emptyWindows := by
  have emptied : Works [.table] s { s with channels := Machine.tableMap (fun _ e =>
      { e with levels := Vector.replicate 3 .none, win := .empty, cnt := .zero }) s.channels } :=
    tableMap (f := fun _ e => { e with levels := Vector.replicate 3 .none, win := .empty, cnt := .zero })
      (fun _ _ => ⟨rfl, rfl, rfl, rfl, fun _ => PairWindow.empty_ok⟩) s
  exact (emptied.mono (by simp)).trans (mono (K := [.subs]) (one ⟨by rfl, trivial⟩) (by simp))

end Works

end Sys2Proof.Machine

/-! PROOF. What RSTN, the close of a tick and every command that is not the monitor's do, as actions on banks. -/

namespace Sys2Proof.Machine

namespace Works

/-! ## RSTN (10 R189) -/

theorem resetPortByPin (p : Fin 3) (s : State) : Works [.port, .pending] s (s.resetPortByPin p) := by
  refine (downPort p s).trans (mono (K := [.port]) (updPort ⟨fun h => ?_, id, rfl, rfl, rfl⟩) (by simp))
  exact { h with }

theorem emptyMarkerPorts (s : State) : Works [.subs, .pending] s s.emptyMarkerPorts := by
  refine Works.trans (mono (K := [.subs]) (subs s.unmapped (Vector.replicate 3 0) s) (by simp))
    (mono (K := [.pending]) (one ⟨by rfl, fun p m _ => ?_⟩) (by simp))
  change (Vector.replicate 3 (Vector.replicate 4 0))[p][m] ≤ 255
  rw [replicate_get, replicate_get]
  exact Nat.zero_le _

/-- What the assertion of RSTN writes. -/
abbrev assertBanks : List Bank :=
  [.port, .pending, .line, .table, .subs, .arrival, .engineOut, .markerOut, .rstn]

theorem assertRstn (s : State) : Works assertBanks s s.assertRstn := by
  obtain ⟨t, ht⟩ : ∃ t, t = s.assertRstn := ⟨_, rfl⟩
  obtain ⟨-, ports, lines⟩ := State.assertRstn_spec ht
  obtain ⟨u, hu⟩ : ∃ u, u = Machine.sweep State.resetLineByPin allLines (Machine.sweep State.resetPortByPin allPorts s) := ⟨_, rfl⟩
  have first : Works [.port, .pending, .line] s u := by
    rw [hu]
    exact ((sweep resetPortByPin _ _).mono (by simp)).trans ((sweep resetLineByPin _ _).mono (by simp))
  obtain ⟨v, hv⟩ : ∃ v, v = { u.emptyWindows.emptyMarkerPorts with
    arrivals := Vector.replicate 8 [], pool := { u.pool with fromEngine := [], fromMarkers := [] } } := ⟨_, rfl⟩
  have second : Works [.table, .subs, .pending, .arrival, .engineOut, .markerOut] u v := by
    rw [hv]
    exact ((((emptyWindows u).mono (by simp)).trans ((emptyMarkerPorts _).mono (by simp))).trans
      ((arrivals _ _).mono (by simp))).trans (((fromEngine [] _).mono (by simp)).trans ((fromMarkers [] _).mono (by simp)))
  have whole : t = { v with rstnAsserted := true } := by
    rw [ht, State.assertRstn, ← hu, hv]
    rfl
  rw [← ht]
  refine ((first.mono (by simp)).trans (second.mono (by simp))).trans ?_
  refine mono (K := [.rstn]) (one ⟨?_, fun _ => ⟨fun p => (ports p).1, fun l => ?_⟩⟩) (by simp)
  · rw [whole]
    rfl
  · rw [lines]
    exact atRest_receiving s.lines[l]

theorem samplePermits (s : State) : Works [.permit] s s.samplePermits := by
  refine .one ⟨rfl, fun p ok => ?_, fun _ p down => ?_, State.store_congr (fun p => ?_) (fun p => ?_) rfl rfl⟩
  all_goals rw [State.samplePermits, State.mapPorts_get]
  · exact Port.BodyOk.settle s.tick { ok.body with }
  · exact down
  · rfl
  · rfl

/-- What the release of RSTN writes. -/
abbrev releaseBanks : List Bank := [.permit, .interp, .marker, .rstn]

theorem releaseRstn (s : State) : Works releaseBanks s s.releaseRstn := by
  have counts (u : State) : Works [.interp] u (u.mapInterps fun x => { x with busy := 0, calibrations := 0 }) := by
    refine .one ⟨rfl, fun k => ?_⟩
    rw [State.mapInterps_get]
    exact ⟨id, fun _ => id⟩
  have glitches (u : State) : Works [.marker] u (u.mapMarkers fun y => { y with glitches := 0 }) := by
    refine .one ⟨rfl, fun k => ?_⟩
    rw [State.mapMarkers_get]
    exact id
  refine (((samplePermits s).mono (by simp)).trans ((counts _).mono (by simp))).trans (((glitches _).mono (by simp)).trans ?_)
  exact mono (K := [.rstn]) (one ⟨by rfl, nofun⟩) (by simp)

theorem dueRstn (s : State) : Works (releaseBanks ++ assertBanks) s s.dueRstn :=
  .ite (fun _ => ((releaseRstn s).mono (by simp)).trans (.ite (fun _ => (assertRstn _).mono (by simp)) fun _ => .refl))
    fun _ => .refl

/-! ## Reset Port (09 R181) -/

theorem resetPortPart (p : Fin 3) (s : State) : Works [.port] s (s.resetPortPart p) := by
  refine .ite (fun _ => ?_) fun _ => .refl
  refine Works.trans (t := if s.ports[p].inService then s.detachPort p .reset else s)
    (.ite (fun serves => detachPort _ (Port.up_of_inService serves)) fun _ => .refl) (updPort ?_)
  have counted (q : Port) : q.Changes { q with cause := .reset, lossTotal := 0, counters := .zero } :=
    ⟨fun h => { h with }, id, rfl, rfl, rfl⟩
  exact (counted _).trans (Port.changes_updParts (f := fun c =>
    { c with parts := some { engine := false, marker := false, pool := false } }) (fun _ => rfl) _)

theorem takePart {K : List Bank} (p : Fin 3) (isTaken : ResetParts → Bool) (mark : ResetParts → ResetParts)
    {act : State → State} (h : ∀ u, Works K u (act u)) (s : State) :
    Works (.port :: K) s (s.takePart p isTaken mark act) := by
  unfold State.takePart
  split
  · exact .refl
  · next x _ =>
    refine .ite (fun _ => ?_) fun _ => .refl
    have taken : Works [.port] (act s) ((act s).updPort p fun q => q.updParts fun c => { c with parts := some (mark x) }) :=
      updPort (Port.changes_updParts (f := fun c => { c with parts := some (mark x) }) (fun _ => rfl) _)
    refine ((h s).mono (by simp)).trans ((taken.mono (by simp)).trans ?_)
    exact .ite (fun _ => mono (K := [.port]) (updPort (Port.changes_answer _ _)) (by simp)) fun _ => .refl

/-! ## The close of a tick (log entry 2) -/

theorem dueLinkLoss (p : Fin 3) (s : State) : Works [.port, .pending] s (s.dueLinkLoss p) :=
  .ite (fun _ => linkLoss p s) fun _ => .refl

theorem dueOffers (s : State) : Works [.engineOut, .markerOut, .port] s s.dueOffers :=
  (times (takeOffer _) _ s).trans (times (takeOffer _) _ _)

end Works

/-- What is due before RSTN. -/
def State.closeInputs (s : State) : State :=
  let t := sweep State.dueEdges allInputs s.takeRollover
  let t := sweep State.dueSample allInputs (sweep State.dueCaptures allInputs t)
  let t := t.noPulse.missedWindow.takeRollover.calibrationExpiry
  sweep State.dueLinkLoss allPorts (sweep State.quietExpiry allLines (sweep State.qualify allMarkers t))

/-- What is due after RSTN. -/
def State.closeOutputs (s : State) : State :=
  let t := (sweep State.dueArrivals allLines s).dueGaps.dueOffers
  let t := sweep State.holdExpiry allPorts (sweep State.heartbeatExpiry allPorts t)
  (sweep State.startLinkFrame allPorts (sweep State.silenceExpiry allPorts t)).secpFall

theorem State.closeTick_eq (s : State) : s.closeTick = s.closeInputs.dueRstn.closeOutputs := rfl

namespace Works

abbrev inputBanks : List Bank :=
  [.count, .interp, .cal, .pending] ++ edgeBanks

theorem closeInputs (s : State) : Works inputBanks s s.closeInputs := by
  obtain ⟨t, ht⟩ : ∃ t, t = Machine.sweep State.dueSample allInputs
    (Machine.sweep State.dueCaptures allInputs (Machine.sweep State.dueEdges allInputs s.takeRollover)) := ⟨_, rfl⟩
  have first : Works inputBanks s t := by
    rw [ht]
    exact (((takeRollover s).mono (by simp)).trans (sweep (fun i u => (dueEdges i u).mono (by simp)) _ _)).trans
      ((sweep (fun i u => (dueCaptures i u).mono (by simp)) _ _).trans (sweep (fun i u => (dueSample i u).mono (by simp)) _ _))
  obtain ⟨u, hu⟩ : ∃ u, u = t.noPulse.missedWindow.takeRollover.calibrationExpiry := ⟨_, rfl⟩
  have second : Works inputBanks t u := by
    rw [hu]
    exact (((noPulse t).trans (missedWindow _)).trans (takeRollover _)).mono (by simp) |>.trans
      ((calibrationExpiry _).mono (by simp))
  rw [State.closeInputs, ← ht, ← hu]
  exact (first.trans second).trans (((sweep (fun i u => (qualify i u).mono (by simp)) _ _).trans
    (sweep (fun i u => (quietExpiry i u).mono (by simp)) _ _)).trans (sweep (fun i u => (dueLinkLoss i u).mono (by simp)) _ _))

abbrev outputBanks : List Bank := [.arrival, .line, .table, .engineOut, .markerOut, .port, .secp]

theorem dueArrivals (l : Fin 8) (s : State) : Works [.arrival, .line, .table, .engineOut] s (s.dueArrivals l) :=
  times (arrivalTake l) _ s

theorem dueGaps (s : State) : Works [.table, .engineOut] s s.dueGaps := sweep gapExpiry _ s

theorem closeOutputs (s : State) : Works outputBanks s s.closeOutputs := by
  obtain ⟨t, ht⟩ : ∃ t, t = (Machine.sweep State.dueArrivals allLines s).dueGaps.dueOffers := ⟨_, rfl⟩
  have first : Works outputBanks s t := by
    rw [ht]
    exact ((sweep (fun i u => (dueArrivals i u).mono (by simp)) _ _).trans ((dueGaps _).mono (by simp))).trans
      ((dueOffers _).mono (by simp))
  rw [State.closeOutputs, ← ht]
  exact first.trans (((sweep heartbeatExpiry _ t).trans (sweep holdExpiry _ _)).trans
    ((sweep silenceExpiry _ _).trans (sweep startLinkFrame _ _)) |>.mono (by simp) |>.trans ((secpFall _).mono (by simp)))

abbrev tickBanks : List Bank := inputBanks ++ (releaseBanks ++ assertBanks) ++ outputBanks

theorem closeTick (s : State) : Works tickBanks s s.closeTick := by
  rw [State.closeTick_eq]
  exact (((closeInputs s).mono (by simp)).trans ((dueRstn _).mono (by simp))).trans ((closeOutputs _).mono (by simp))

end Works

end Sys2Proof.Machine

/-! PROOF. Every command answers with a next state; one that is not the monitor's is some actions on banks. -/

namespace Sys2Proof.Machine

/-! ## The commands of a drop link -/

theorem foldl_be_lt (bs : List Byte) (n : Nat) :
    bs.foldl (fun n b => n * 256 + b.toNat) n < (n + 1) * 256 ^ bs.length := by
  induction bs generalizing n with
  | nil => exact Nat.lt_of_lt_of_eq (Nat.lt_succ_self n) (Nat.mul_one _).symm
  | cons b bs ih =>
    have byte := b.isLt
    calc _ < (n * 256 + b.toNat + 1) * 256 ^ bs.length := ih _
      _ ≤ ((n + 1) * 256) * 256 ^ bs.length := Nat.mul_le_mul_right _ (by omega)
      _ = (n + 1) * 256 ^ (b :: bs).length := by rw [List.length_cons, Nat.pow_succ, Nat.mul_assoc, Nat.mul_comm 256]

/-- A number of two bytes. -/
theorem numAt_two_le (i : Nat) (bs : List Byte) : numAt i 2 bs ≤ 65535 := by
  have length : (bytesAt i 2 bs).length ≤ 2 := List.length_take_le 2 _
  have below := foldl_be_lt (bytesAt i 2 bs) 0
  have most : 256 ^ (bytesAt i 2 bs).length ≤ 256 ^ 2 := Nat.pow_le_pow_right (by decide) length
  rw [numAt, beNat]
  omega

/-- An Attach that has a form carries credits within their limit. -/
theorem parseCommand_attach {bs : List Byte} {n : Nat} (h : parseCommand bs = some (.attach n)) : n ≤ maxCredits := by
  unfold parseCommand at h
  split at h
  · split at h
    · unfold commandOf at h
      split at h
      case h_1 =>
        rw [← Command.attach.inj (Option.some.inj h)]
        exact numAt_two_le 0 _
      all_goals cases h
    · cases h
  · cases h

/-- What a command of a drop link writes. -/
abbrev commandBanks : List Bank :=
  [.invalid, .cal, .clock, .port, .reading, .secp, .table, .engineOut, .subs, .pending, .line, .marker]

/-- What the owner of a command does (09 R178). -/
theorem Command.owner_works {p : Fin 3} {k : Command} {row : Instr} {act : State → State × Reply} {bs : List Byte}
    (parsed : parseCommand bs = some k) (own : k.owner p = some (row, act)) (s : State) :
    Works commandBanks s (act s).1 := by
  cases k with
  | attach n => cases own; exact (Works.attach p n (parseCommand_attach parsed) s).mono (by simp)
  | detach => cases own; exact (Works.detach p s).mono (by simp)
  | hold => cases own; exact (Works.hold p s).mono (by simp)
  | release => cases own; exact (Works.release p s).mono (by simp)
  | grantCredits n => cases own; exact (Works.grantCredits p n s).mono (by simp)
  | setQuota n => cases own; exact (Works.setQuota p n s).mono (by simp)
  | setPacing h m si => cases own; exact (Works.setPacing p h m si s).mono (by simp)
  | subscribe a b l => cases own; exact (Works.setLevels p a b l subscribed s).mono (by simp)
  | unsubscribe a b l => cases own; exact (Works.setLevels p a b l unsubscribed s).mono (by simp)
  | subscribeMarkers x => cases own; exact (Works.setMarkerSubs p x s).mono (by simp)
  | subscribeUnmapped x => cases own; exact (Works.setUnmapped p x s).mono (by simp)
  | queryTime => cases own; exact .refl
  | readStatus => cases own; exact (Works.readStatus p s).mono (by simp)
  | readChannel i => cases own; exact (Works.readChannel i s).mono (by simp)
  | swapMarkers => cases own; exact (Works.swapMarkers p s).mono (by simp)
  | readMarkerLog m =>
    cases own
    rw [State.readMarkerLog]
    split <;> exact .refl
  | resetPort => cases own
  | writeChannel i k n a q m o r x g => cases own; exact (Works.writeChannel p i k n a q m o r x g s).mono (by simp)
  | removeChannel i => cases own; exact (Works.removeChannel p i s).mono (by simp)
  | setPairMode q m => cases own; exact (Works.setPairMode p q m s).mono (by simp)
  | writeLineSettings l e x q => cases own; exact (Works.writeLine p l e x q s).mono (by simp)
  | writeMarkerSettings m e w x => cases own; exact (Works.writeMarker p m e w x s).mono (by simp)
  | writeDisciplineSettings sl a b w lt lc rc st hl ci sw ls po =>
    cases own
    exact (Works.writeDiscipline p sl a b w lt lc rc st hl ci sw ls po s).mono (by simp)
  | labelNextPulse v => cases own; exact (Works.armLabel v s).mono (by simp)
  | trimRate r => cases own; exact (Works.trimRate r s).mono (by simp)
  | clearInvalid => cases own; exact (Works.clearInvalid s).mono (by simp)

/-- A row of a drop link takes the command that its port holds, where it is one of the row. -/
def IsCommandRow (p : Fin 3) (row : Instr) (f : Command → Option (State → State × Reply)) : Prop :=
  ∀ k act, f k = some act → k.owner p = some (row, act)

theorem Works.takeCommand {p : Fin 3} {row : Instr} {f : Command → Option (State → State × Reply)}
    (own : IsCommandRow p row f) (s : State) : Works commandBanks s (s.takeCommand p f) := by
  refine .ite (fun _ => ?_) fun _ => .refl
  split
  · exact .refl
  · next act held =>
    obtain ⟨k, parsed, named⟩ := Option.bind_eq_some_iff.1 held
    obtain ⟨c, -, parsed⟩ := Option.bind_eq_some_iff.1 parsed
    split at parsed
    · exact (Command.owner_works parsed (own k act named) s).trans
        (mono (K := [.port]) (updPort (Port.changes_answer _ _)) (by simp))
    · cases parsed

/-- The row of a command takes it from its port. -/
theorem exec_commandRow {p : Fin 3} {k : Command} {row : Instr} {act : State → State × Reply}
    (own : k.owner p = some (row, act)) :
    ∃ f, IsCommandRow p row f ∧ ∀ s, exec row s = .next (s.takeCommand p f) := by
  cases k with
  | resetPort => cases own
  | _ =>
    cases own
    exact ⟨_, fun k act h => by cases k <;> cases h; rfl, fun _ => rfl⟩

/-! ## Every command -/

/-- The rows of the monitor, and a rollover, which may bring the next tick. -/
def ofMonitor : Instr → Bool
  | .rollover | .powerOn | .startupDelayEnd | .coreRelease _ | .clockStop | .supplyDip | .supplyRecovery | .dipRecoveryEnd
  | .rstnAssertion | .rstnRelease _ | .coreTick | .clockDropout | .clockGoodCountComplete => true
  | _ => false

/-- Every part of the state that an action writes. -/
abbrev allBanks : List Bank :=
  [.clock, .secp, .reading, .interp, .cal, .line, .arrival, .table, .subs, .marker, .pending, .port, .permit, .engineOut,
    .markerOut, .rstn, .count, .invalid]

theorem Works.all {K : List Bank} {s t : State} (h : Works K s t) : Works allBanks s t :=
  h.mono fun b _ => by cases b <;> simp

/-- A command outside the monitor answers with a state that some actions lead to; while the core does not run it leaves
SECP and the monitor as they are. -/
def Instr.Acts (c : Instr) (s : State) : Prop :=
  ∃ t, exec c s = .next t ∧ Works allBanks s t ∧ (s.running = false → t.secp = s.secp ∧ t.mon = s.mon)

/-- A command that no actions on the counter, on SECP or on INVALID belong to. -/
theorem acts_of_quiet {K : List Bank} {c : Instr} {s t : State} (run : exec c s = .next t) (works : Works K s t)
    (quiet : .clock ∉ K ∧ .secp ∉ K ∧ .invalid ∉ K := by simp) : Instr.Acts c s :=
  ⟨t, run, works.all, fun _ => ⟨(works.secp_kept quiet.1 quiet.2.1).1, works.mon_kept quiet.2.2⟩⟩

/-- A command that does nothing while the core does not run. -/
theorem acts_of_guarded {K : List Bank} {c : Instr} {s t : State} (run : exec c s = .next t) (works : Works K s t)
    (idle : s.running = false → t = s) : Instr.Acts c s :=
  ⟨t, run, works.all, fun held => by rw [idle held]; exact ⟨rfl, rfl⟩⟩

theorem acts_of_command {p : Fin 3} {row : Instr} (k : Command) {act : State → State × Reply}
    (own : k.owner p = some (row, act)) (s : State) : Instr.Acts row s := by
  obtain ⟨f, rows, runs⟩ := exec_commandRow own
  exact acts_of_guarded (runs s) (Works.takeCommand rows s) fun held => if_neg (by rw [held]; decide)

/-! What does nothing while the core does not run. -/

theorem State.secpFall_held {s : State} (held : s.running = false) : s.secpFall = s := if_neg (by simp [held])

theorem State.captureEdge_held {i : Input} {s : State} (held : s.running = false) : s.captureEdge i = s :=
  if_neg (by simp [State.canCapture, held])

theorem State.endConversion_held {i : Input} {k : Fin 32} {s : State} (held : s.running = false) :
    s.endConversion i k = s := by
  rw [State.endConversion]
  split
  · rfl
  · exact if_neg (by simp [held])

theorem State.handCoarse_held {i : Input} {s : State} (held : s.running = false) : s.handCoarse i = s := by
  rw [State.handCoarse]
  split
  · rfl
  · exact if_neg (by simp [held])

theorem State.noPulse_held {s : State} (held : s.running = false) : s.noPulse = s := by
  rw [State.noPulse]
  split
  · rfl
  · exact if_neg (by simp [held])

theorem State.missedWindow_held {s : State} (held : s.running = false) : s.missedWindow = s := by
  rw [State.missedWindow]
  split
  · exact if_neg (by simp [held])
  · rfl

theorem acts_markerRaw (m : Fin 4) (d : Direction) (s : State) : Instr.Acts (.markerRawEdge m d) s := by
  cases run : s.running with
  | true => exact ⟨_, rfl, (Works.markerRaw m d s).all, fun held => absurd (run.symm.trans held) (by decide)⟩
  | false =>
    have raw : exec (.markerRawEdge m d) s = .next (s.rawEdge m d) :=
      congrArg Host.Outcome.next (State.markerRaw_held run)
    exact acts_of_quiet raw (Works.rawEdge m d s)

theorem exec_works (c : Instr) (s : State) (h : ofMonitor c = false) : Instr.Acts c s := by
  cases c with
  | attach p => exact acts_of_command (.attach 0) (p := p) rfl s
  | detach p => exact acts_of_command .detach (p := p) rfl s
  | hold p => exact acts_of_command .hold (p := p) rfl s
  | release p => exact acts_of_command .release (p := p) rfl s
  | grantCredits p => exact acts_of_command (.grantCredits 0) (p := p) rfl s
  | setQuota p => exact acts_of_command (.setQuota 0) (p := p) rfl s
  | setPacing p => exact acts_of_command (.setPacing 0 0 0) (p := p) rfl s
  | subscribe p => exact acts_of_command (.subscribe 0 0 0) (p := p) rfl s
  | unsubscribe p => exact acts_of_command (.unsubscribe 0 0 0) (p := p) rfl s
  | subscribeUnmapped p => exact acts_of_command (.subscribeUnmapped 0) (p := p) rfl s
  | subscribeMarkers p => exact acts_of_command (.subscribeMarkers 0) (p := p) rfl s
  | queryTime p => exact acts_of_command .queryTime (p := p) rfl s
  | readStatus p => exact acts_of_command .readStatus (p := p) rfl s
  | readChannel p => exact acts_of_command (.readChannel 0) (p := p) rfl s
  | swapMarkers p => exact acts_of_command .swapMarkers (p := p) rfl s
  | readMarkerLog p => exact acts_of_command (.readMarkerLog 0) (p := p) rfl s
  | resetPort p => exact acts_of_quiet rfl (Works.resetPortPart p s)
  | resetPortEnginePart p => exact acts_of_quiet rfl (Works.takePart p _ _ (Works.clearLevels p) s)
  | resetPortMarkerPart p => exact acts_of_quiet rfl (Works.takePart p _ _ (Works.clearMarkers p) s)
  | resetPortPoolPart p => exact acts_of_quiet rfl (Works.takePart p _ _ (Works.restoreQuota p) s)
  | writeChannel p => exact acts_of_command (.writeChannel 0 0 0 0 0 0 0 0 0 0) (p := p) rfl s
  | removeChannel p => exact acts_of_command (.removeChannel 0) (p := p) rfl s
  | setPairMode p => exact acts_of_command (.setPairMode 0 0) (p := p) rfl s
  | writeLineSettings p => exact acts_of_command (.writeLineSettings 0 0 0 0) (p := p) rfl s
  | writeMarkerSettings p => exact acts_of_command (.writeMarkerSettings 0 0 0 0) (p := p) rfl s
  | writeDisciplineSettings p =>
    exact acts_of_command (.writeDisciplineSettings 0 0 0 0 0 0 0 0 0 0 0 0 0) (p := p) rfl s
  | labelNextPulse p => exact acts_of_command (.labelNextPulse 0) (p := p) rfl s
  | trimRate p => exact acts_of_command (.trimRate 0) (p := p) rfl s
  | clearInvalid p => exact acts_of_command .clearInvalid (p := p) rfl s
  | secpFall => exact acts_of_guarded rfl (Works.secpFall s) State.secpFall_held
  | edgeCapture i => exact acts_of_guarded rfl (Works.captureEdge i s) State.captureEdge_held
  | conversionEnd i k => exact acts_of_guarded rfl (Works.endConversion i k s) State.endConversion_held
  | coarseEdgeHandover i => exact acts_of_guarded rfl (Works.handCoarse i s) State.handCoarse_held
  | internalEdge i => exact acts_of_quiet rfl (Works.internalEdge i s)
  | sampleEnd i k => exact acts_of_quiet rfl (Works.endSample i k s)
  | calibrationTimerExpiry => exact acts_of_quiet rfl (Works.calibrationExpiry s)
  | noPulse => exact acts_of_guarded rfl (Works.noPulse s) State.noPulse_held
  | missedWindow => exact acts_of_guarded rfl (Works.missedWindow s) State.missedWindow_held
  | blockLockGained l => exact acts_of_quiet rfl (Works.lockGained l s)
  | blockLockLost l bytes => exact acts_of_quiet rfl (Works.lockLost bytes s)
  | frameStart l bytes => exact acts_of_quiet rfl (Works.startFrame bytes s)
  | frameEnd l bytes how => exact acts_of_quiet rfl (Works.frameEnds bytes how s)
  | byteCountLimit l bytes => exact acts_of_quiet rfl (Works.byteLimit bytes s)
  | quietTimerExpiry l => exact acts_of_quiet rfl (Works.quietExpiry l s)
  | arrivalTake l => exact acts_of_quiet rfl (Works.arrivalTake l s)
  | gapDeadlineExpiry i => exact acts_of_quiet rfl (Works.gapExpiry i.val s)
  | markerRawEdge m d => exact acts_markerRaw m d s
  | markerQualification m => exact acts_of_quiet rfl (Works.qualify m s)
  | recordOffer src => exact acts_of_quiet rfl (Works.takeOffer src s)
  | heartbeatTimerExpiry p => exact acts_of_quiet rfl (Works.heartbeatExpiry p s)
  | linkUp p => exact acts_of_quiet rfl (Works.linkUp p s)
  | linkLoss p => exact acts_of_quiet rfl (Works.linkLoss p s)
  | commandFrameReceived p bytes => exact acts_of_quiet rfl (Works.receiveFrame p bytes s)
  | commandHandover p => exact acts_of_quiet rfl (Works.handOver p s)
  | linkFrameStart p => exact acts_of_quiet rfl (Works.startLinkFrame p s)
  | linkFrameEnd p => exact acts_of_quiet rfl (Works.endLinkFrame p s)
  | holdTimerExpiry p => exact acts_of_quiet rfl (Works.holdExpiry p s)
  | silenceTimerExpiry p => exact acts_of_quiet rfl (Works.silenceExpiry p s)
  | _ => cases h

end Sys2Proof.Machine

/-! PROOF. What every action and every leap of the monitor keeps, every command keeps. -/

namespace Sys2Proof.Machine

/-! ## Leaps of the monitor -/

/-- A stop of the core (10 R185). -/
def State.frozen (s : State) : State :=
  s.freezeCore.updMon fun m => { m with phase := .stopped, noTick := Config.stopCycles, good := 0, cause := .clockStop }

/-- A dip of the supply (10 R186). -/
def State.lost (s : State) : State :=
  s.loseCore.updMon fun m => { m with phase := .dip, rc := 0, good := 0, cause := .supplyDip }

/-- Only the monitor and the pins change, and neither whether the core runs nor INVALID. -/
structure State.Beside (s t : State) : Prop where
  frame : t = { s with mon := t.mon, rstnLow := t.rstnLow, straps := t.straps, rstnReleaseAt := t.rstnReleaseAt }
  running : t.running = s.running
  invalid : t.mon.invalid = s.mon.invalid

/-- A core at its first tick, before its notices and before its lines come to rest (10 R188). -/
def State.begun (straps : BitVec 3) (s : State) : State :=
  { s.started straps with
    time := s.held.addTick, rolled := s.rolled.next s.held.rolls
    disc := { s.disc.clear with qualityAt := (s.released straps).disc.qualityAt } }

theorem Works.released (straps : BitVec 3) (s : State) : Works [.port] (s.begun straps) (s.released straps) := by
  obtain ⟨u, hu⟩ : ∃ u, u = s.released straps := ⟨_, rfl⟩
  obtain ⟨v, hv⟩ : ∃ v, v = s.started straps := ⟨_, rfl⟩
  have led : u = (v.led s.held.addTick (s.rolled.next s.held.rolls) s.disc.clear
      [.invalid (some s.mon.cause)]).raiseQuality v.disc.state v.disc.suspect := by
    rw [hu, hv]
    rfl
  obtain ⟨whole, -⟩ := State.raiseQuality_led (by rw [hv]; rfl) led
  obtain ⟨w, hw⟩ : ∃ w, w = s.begun straps := ⟨_, rfl⟩
  have start : w = { v with
      time := s.held.addTick, rolled := s.rolled.next s.held.rolls
      disc := { s.disc.clear with qualityAt := u.disc.qualityAt } } := by
    rw [hw, State.begun, ← hu, ← hv]
  rw [← hu, ← hw]
  have ports : w.ports = v.ports := by rw [start]
  have told (p : Fin 3) : w.ports[p].Moves u.ports[p] := by
    rw [ports, whole]
    exact v.raised_moves u _ p
  have final : (v.raised u [.invalid (some s.mon.cause)]).ports = u.ports := (congrArg State.ports whole :).symm
  refine .ports (whole.trans ?_) (fun p => (told p).1) fun p => (told p).2
  rw [final, start]

/-- A core at its first tick with its lines at rest, before a latched RSTN (04 R92). -/
def State.resting (straps : BitVec 3) (s : State) : State := sweep State.restartLine allLines (s.released straps)

theorem Works.resting (straps : BitVec 3) (s : State) : Works [.port, .line] (s.begun straps) (s.resting straps) :=
  ((Works.released straps s).mono (by simp)).trans ((Works.sweep Works.restartLine allLines _).mono (by simp))

theorem State.takeLatch_eq {s t : State} (ht : t = s.assertRstn) : s.takeLatch = if s.mon.latched || s.rstnLow then
    { t with
      rstnReleaseAt := if s.mon.latchReleased || !s.rstnLow then some (s.tick + 1) else none
      mon := { t.mon with latched := false, latchReleased := false } } else s := by
  rw [ht]
  rfl

theorem resting_of_begun {P : State → Prop} {straps : BitVec 3} {s : State}
    (acts : ∀ {s t : State} {b : Bank}, Act s t b → P s → P t) (h : P (s.begun straps)) : P (s.resting straps) :=
  (Works.resting straps s).preserves (fun _ _ _ _ act => acts act) h

/-- What every action and every leap of the monitor keeps. -/
structure Kept (P : State → Prop) : Prop where
  acts : ∀ {s t : State} {b : Bank}, Act s t b → P s → P t
  beside : ∀ {s t : State}, s.Beside t → P s → P t
  advance : ∀ s : State, P s → P s.advanceTick
  release : ∀ (straps : BitVec 3) (s : State), s.running = false → P s → P (s.resting straps)
  freeze : ∀ s : State, P s → P s.frozen
  lose : ∀ s : State, P s → P s.lost
  reset : ∀ s : State, P s → P { State.reset with pending := s.pending }

namespace Kept
variable {P : State → Prop}

theorem works (h : Kept P) {K : List Bank} {s t : State} (works : Works K s t) (hs : P s) : P t :=
  works.preserves (fun _ _ _ _ act => h.acts act) hs

/-- A change of the monitor that keeps whether the core runs and INVALID. -/
theorem updMon (h : Kept P) {s : State} {f : Monitor → Monitor} (running : (s.updMon f).running = s.running)
    (invalid : (f s.mon).invalid = s.mon.invalid) (hs : P s) : P (s.updMon f) :=
  h.beside ⟨rfl, running, invalid⟩ hs

theorem takeLatch (h : Kept P) {s : State} (hs : P s) : P s.takeLatch := by
  obtain ⟨t, ht⟩ : ∃ t, t = s.assertRstn := ⟨_, rfl⟩
  have taken : P t := h.works (ht ▸ Works.assertRstn s) hs
  rw [State.takeLatch_eq ht]
  split
  · exact h.beside ⟨rfl, rfl, rfl⟩ taken
  · exact hs

theorem releaseCore (h : Kept P) {straps : BitVec 3} {s : State} (held : s.running = false) (hs : P s) :
    P (s.releaseCore straps) := by
  rw [State.releaseCore_eq]
  exact h.takeLatch (h.release straps s held hs)

theorem closeTick (h : Kept P) {s : State} (hs : P s) : P s.closeTick := h.works (Works.closeTick s) hs

theorem powerOn (h : Kept P) {s : State} (hs : P s) :
    P (sweep (fun m => State.updMarker m fun y => { y with level := s.markers[m].level }) allMarkers
      { State.reset with pending := s.pending, free := s.free, straps := s.straps, rstnLow := s.rstnLow
                         mon := { Monitor.reset with vio := s.mon.vio } }) := by
  have levels (m : Fin 4) (u : State) :
      Works [.marker] u (u.updMarker m fun y => { y with level := s.markers[m].level }) :=
    Works.putMarker fun ok => ok
  refine h.works (Works.sweep levels allMarkers _) ?_
  have pins : State.Beside { State.reset with pending := s.pending } { State.reset with
      pending := s.pending, straps := s.straps, rstnLow := s.rstnLow, mon := { Monitor.reset with vio := s.mon.vio } } :=
    ⟨rfl, rfl, rfl⟩
  exact h.works (Works.count _ State.reset.edgeSeq s.free) (h.beside pins (h.reset s hs))

/-- The monitor of a core that does not run passes to another phase in which it does not run. -/
theorem heldMon (h : Kept P) {s : State} {f : Monitor → Monitor} (held : s.mon.phase ≠ .run) (after : (f s.mon).phase ≠ .run)
    (invalid : (f s.mon).invalid = s.mon.invalid) (hs : P s) : P (s.updMon f) := by
  refine h.updMon ?_ invalid hs
  rw [(State.not_running_iff s).2 held]
  exact (State.not_running_iff _).2 after

theorem rollover (h : Kept P) (s : State) : ∃ t, Machine.exec .rollover s = .next t ∧ (P s → P t) := by
  refine ⟨_, rfl, fun hs => ?_⟩
  split
  · rw [State.rollOver]
    split
    · exact h.works (Works.takeRollover s) hs
    · split
      · exact h.works (Works.takeRollover _) (h.advance _ (h.closeTick hs))
      · exact hs
  · exact hs

theorem phase_of_early {m : Monitor} (early : m.beforeFirstRelease = true) : m.phase ≠ .run := by
  intro run
  rw [Monitor.beforeFirstRelease, run] at early
  cases early

/-- Every command keeps it. -/
theorem exec (h : Kept P) (c : Instr) (s : State) : ∃ t, Machine.exec c s = .next t ∧ (P s → P t) := by
  by_cases other : ofMonitor c = false
  · obtain ⟨t, runs, works, -⟩ := exec_works c s other
    exact ⟨t, runs, h.works works⟩
  cases c with
  | rollover => exact h.rollover s
  | powerOn => exact ⟨_, rfl, h.powerOn⟩
  | startupDelayEnd =>
    refine ⟨_, rfl, fun hs => ?_⟩
    split
    · next now =>
      rw [Bool.and_eq_true, Bool.and_eq_true, beq_iff_eq] at now
      exact h.heldMon (by rw [now.1.1]; decide) (show Phase.clockQualify ≠ .run by decide) rfl hs
    · exact hs
  | coreRelease straps =>
    refine ⟨_, rfl, fun hs => ?_⟩
    split
    · next ready => exact h.releaseCore (State.not_running_of_releaseReady ready) hs
    · exact hs
  | coreTick =>
    refine ⟨_, rfl, fun hs => ?_⟩
    split
    · exact h.advance _ (h.closeTick hs)
    · next held =>
      split
      · exact h.releaseCore (Bool.eq_false_iff.2 held) hs
      · exact h.updMon rfl rfl hs
  | clockStop =>
    refine ⟨_, rfl, fun hs => ?_⟩
    split
    · exact h.freeze _ (h.closeTick hs)
    · exact h.updMon rfl rfl hs
  | clockDropout => exact ⟨_, rfl, fun hs => by split; exacts [hs, h.updMon rfl rfl hs]⟩
  | clockGoodCountComplete => exact ⟨_, rfl, fun hs => by split; exacts [hs, h.updMon rfl rfl hs]⟩
  | supplyDip =>
    refine ⟨_, rfl, fun hs => ?_⟩
    split
    · exact hs
    · split
      · next early => exact h.heldMon (phase_of_early early) (show Phase.startup ≠ .run by decide) rfl hs
      · exact h.lose s hs
  | supplyRecovery =>
    refine ⟨_, rfl, fun hs => ?_⟩
    split
    · next dip => exact h.heldMon (by rw [dip]; decide) (show Phase.dipRecovery ≠ .run by decide) rfl hs
    · next start =>
      have phase : s.mon.phase ≠ .run := by rw [start]; decide
      refine h.heldMon phase ?_ ?_ hs <;> split <;> first | exact phase | rfl
    all_goals exact hs
  | dipRecoveryEnd =>
    refine ⟨_, rfl, fun hs => ?_⟩
    split
    · next now => exact h.heldMon (by rw [now]; decide) (show Phase.clockQualify ≠ .run by decide) rfl hs
    · exact hs
  | rstnAssertion =>
    refine ⟨_, rfl, fun hs => ?_⟩
    split
    · exact hs
    · have low : P { s with rstnLow := true } := h.beside ⟨rfl, rfl, rfl⟩ hs
      dsimp only
      split
      · exact h.updMon rfl rfl low
      · split
        · exact low
        · exact h.works (Works.assertRstn _) low
  | rstnRelease straps =>
    refine ⟨_, rfl, fun hs => ?_⟩
    split
    · have high : P { s with rstnLow := false, straps := straps } := h.beside ⟨rfl, rfl, rfl⟩ hs
      dsimp only
      split
      · exact h.updMon rfl rfl high
      · split
        · exact h.works (Works.releaseRstn _) high
        · exact high
    · exact hs
  | _ => exact absurd rfl other

/-- Every step keeps what the choice of the command does not touch. -/
theorem step (h : Kept P) (queue : ∀ (s : State) (cs : List Instr), P s → P { s with pending := cs }) {s t : State}
    (run : Machine.step s = .next t) (hs : P s) : P t := by
  rw [Machine.step] at run
  split at run
  · cases run
    exact hs
  · next c cs _ =>
    obtain ⟨u, runs, keeps⟩ := h.exec c { s with pending := cs }
    rw [runs] at run
    cases run
    exact keeps (queue s cs hs)

end Kept

theorem act_pending {cs : List Instr} {s t : State} {b : Bank} (act : Act s t b) (hs : s.pending = cs) : t.pending = cs :=
  act.fixed.1.trans hs

/-- The queue of waiting commands, among all that a step may change. -/
theorem kept_pending (cs : List Instr) : Kept fun s => s.pending = cs where
  acts := act_pending
  beside h hs := by
    rw [h.frame]
    exact hs
  advance _ hs := hs
  release _ _ _ hs := resting_of_begun (P := fun s => s.pending = cs) act_pending hs
  freeze s hs := by
    rw [State.frozen, State.freezeCore_eq]
    exact hs
  lose s hs := by
    rw [State.lost, State.loseCore_eq]
    exact hs
  reset _ hs := hs

/-- Settles O2: every command keeps the queue (`kept_pending`). -/
theorem everyCommandAnswersAndKeepsTheQueue : Obligations.EveryCommandAnswersAndKeepsTheQueue := by
  intro c s
  obtain ⟨t, runs, keeps⟩ := (kept_pending s.pending).exec c s
  exact ⟨t, runs, keeps rfl⟩

end Sys2Proof.Machine

/-! PROOF. The invariants: what each action keeps of them is in its bank, what each leap of the monitor keeps is here. -/

namespace Sys2Proof.Machine

/-! ## The leaps, field by field -/

theorem State.frozen_eq (s : State) : s.frozen = { s with
    mon := { s.latching with phase := .stopped, noTick := Config.stopCycles, good := 0, cause := .clockStop }
    rstnAsserted := false, rstnReleaseAt := none, secp := false, secpFell := none, calExpiry := none
    interps := (s.mapInterps Interp.freeze).interps, lines := (s.mapLines fun x => { x with frames := [] }).lines
    markers := (s.mapMarkers fun y => { y with rawSeen := 0, candidate := none, waiting := [] }).markers
    ports := (s.mapPorts fun _ q => { q with tx := none }).ports } := by
  rw [State.frozen, State.freezeCore_eq]
  rfl

theorem State.lost_eq (s : State) : s.lost = { s with
    mon := { s.latching with invalid := true, phase := .dip, rc := 0, good := 0, cause := .supplyDip }
    rstnAsserted := false, rstnReleaseAt := none, secp := false
    secpFell := none, calExpiry := none, time := { s.time with inc := increment s.disc.rate 0, excess := 0 }
    rolled := .none, disc := s.disc.clear
    channels := tableMap (fun _ e => { e with levels := Vector.replicate 3 .none, win := .empty, cnt := .zero }) s.channels
    unmapped := Vector.replicate 3 0, markerSubs := Vector.replicate 3 0
    markerPending := Vector.replicate 3 (Vector.replicate 4 0), arrivals := Vector.replicate 8 []
    pool := { s.pool with entries := [], fromEngine := [], fromMarkers := [] }
    interps := (s.mapInterps fun _ => .reset).interps, lines := (s.mapLines Line.dip).lines
    markers := (s.mapMarkers Marker.dip).markers, ports := (s.mapPorts fun _ q => q.dip).ports } := by
  rw [State.lost, State.loseCore_eq]
  rfl

theorem State.frozen_running (s : State) : s.frozen.running = false := by
  rw [State.frozen_eq]
  rfl

theorem State.lost_running (s : State) : s.lost.running = false := by
  rw [State.lost_eq]
  rfl

/-! ## The channel table (05 R93, 06 R110) -/

theorem State.TableOk.congr {s t : State} (channels : t.channels = s.channels) (modes : t.pairModes = s.pairModes)
    (h : s.TableOk) : t.TableOk := by
  have fits (sc : Scope) : t.scopeFits sc = s.scopeFits sc := by
    cases sc <;> rw [State.scopeFits, State.scopeFits, modes]
  rw [State.TableOk, channels]
  simp only [fits]
  exact h

theorem act_table {s t : State} {b : Bank} (act : Act s t b) (hs : s.TableOk) : t.TableOk := by
  by_cases own : b = .table
  · subst own
    exact act.effect hs
  · obtain ⟨channels, modes⟩ := act.table_kept own
    exact hs.congr channels modes

theorem kept_table : Kept State.TableOk where
  acts := act_table
  beside h hs := hs.congr (by rw [h.frame]) (by rw [h.frame])
  advance _ hs := hs.congr rfl rfl
  release _ s _ hs := resting_of_begun act_table (State.TableOk.congr (s := s) rfl rfl hs)
  freeze s hs := hs.congr (by rw [State.frozen_eq]) (by rw [State.frozen_eq])
  lose s hs := by
    rw [State.lost_eq]
    refine State.TableOk.congr (s := s.emptyWindows) rfl rfl ?_
    exact (Works.emptyWindows s).preserves (fun _ _ _ _ act => act_table act) hs
  reset s _ := by
    obtain ⟨-, -, -, -, -, table, -⟩ := resetIsGood
    exact table.congr rfl rfl

/-- Settles O57: `kept_table`. -/
theorem everyStepKeepsTheChannelTable : Obligations.EveryStepKeepsTheChannelTable :=
  fun _ _ hs run => kept_table.step (fun _ _ hs => hs.congr rfl rfl) run hs

/-! ## The interpolators (03 R57, R61, R65) -/

theorem Interp.reread_ok {x : Interp} (n : Nat) (r : Reading) (h : x.Ok) : (x.reread n r).Ok := by
  obtain ⟨one, coarse, table, lat, collection, sample⟩ := h
  refine ⟨?_, ?_, table, fun v hv => ?_, collection, sample⟩
  · rw [Interp.reread]
    dsimp only
    rw [Option.map_eq_none_iff]
    exact one
  · exact (List.length_map ..).trans_le coarse
  · obtain ⟨w, hw, rfl⟩ := Option.map_eq_some_iff.1 hv
    exact lat w hw

theorem Interp.reread_readings {x : Interp} (n : Nat) {r : Reading} (ok : r.Ok) (h : x.ReadingsOk) :
    (x.reread n r).ReadingsOk := by
  have capture (c : Capture) (h : c.reading.Ok) : (c.reread n r).reading.Ok := by
    rw [Capture.reread]
    split
    · exact ok
    · exact h
  obtain ⟨conv, coarse⟩ := h
  refine ⟨fun v hv => ?_, fun c hc => ?_⟩
  · obtain ⟨w, hw, rfl⟩ := Option.map_eq_some_iff.1 hv
    exact capture w.cap (conv w hw)
  · obtain ⟨d, hd, rfl⟩ := List.mem_map.1 hc
    exact capture d (coarse d hd)

theorem act_interps {s t : State} {b : Bank} (act : Act s t b) (hs : s.InterpsOk) : t.InterpsOk := by
  cases b with
  | interp => exact fun i => (act.effect i).1 (hs i)
  | reading =>
    obtain ⟨r, rfl, -⟩ := act.effect
    intro i
    rw [State.rereadAs_interp]
    exact Interp.reread_ok _ _ (hs i)
  | _ =>
    rw [State.InterpsOk, act.interps_kept (by nofun) (by nofun)]
    exact hs

theorem Interp.freeze_ok {x : Interp} (h : x.Ok) : x.freeze.Ok := by
  obtain ⟨-, -, table, -, -, -⟩ := h
  exact ⟨.inl rfl, Nat.zero_le _, table, nofun, nofun, nofun⟩

theorem Interp.release_ok {x : Interp} (h : x.Ok) : x.release.Ok := by
  obtain ⟨one, coarse, table, lat, -, -⟩ := Interp.freeze_ok h
  refine ⟨one, coarse, table, lat, fun c hc => ?_, fun _ => rfl⟩
  rw [← Option.some.inj hc]
  exact ⟨show binSum _ = 0 by decide, show 0 < 65536 by decide⟩

theorem kept_interps : Kept State.InterpsOk where
  acts := act_interps
  beside h hs := by
    rw [h.frame]
    exact hs
  advance s hs i := by
    have get : s.advanceTick.interps[i] = { s.interps[i] with captured := 0 } :=
      State.mapInterps_get i (fun x => { x with captured := 0 }) s
    rw [get]
    exact hs i
  release straps s _ hs := by
    refine resting_of_begun act_interps fun i => ?_
    have get : (s.begun straps).interps[i] = s.interps[i].release := State.mapInterps_get i _ s
    rw [get]
    exact Interp.release_ok (hs i)
  freeze s hs i := by
    have get : s.frozen.interps[i] = s.interps[i].freeze := by rw [State.frozen_eq]; exact State.mapInterps_get i _ s
    rw [get]
    exact Interp.freeze_ok (hs i)
  lose s hs i := by
    have get : s.lost.interps[i] = .reset := by
      rw [State.lost_eq]
      exact State.mapInterps_get i (fun _ => .reset) s
    rw [get]
    exact Interp.reset_ok.1
  reset _ _ := by
    obtain ⟨-, -, -, interps, -⟩ := resetIsGood
    exact interps

/-! ## The lines (04 R73, R75) -/

theorem act_lines {s t : State} {b : Bank} (act : Act s t b) (hs : s.LinesOk) : t.LinesOk := by
  intro l
  rw [(Works.one act).running]
  by_cases own : b = .line
  · subst own
    exact (act.effect l).1 (hs l)
  · rw [act.lines_kept own]
    exact hs l

/-- A core that does not run holds less to its lines. -/
theorem Line.BodyOk.held {running : Bool} {x : Line} (h : x.BodyOk running) : x.BodyOk false :=
  ⟨h.enable, h.quietLow, h.quietHigh, nofun, nofun, h.single, nofun⟩

theorem kept_lines : Kept State.LinesOk where
  acts := act_lines
  beside h hs l := by
    rw [h.running, show _ = _ from congrArg State.lines h.frame]
    exact hs l
  advance _ hs := hs
  release straps s _ hs l := by
    obtain ⟨-, lines, -⟩ := State.rested_spec (straps := straps) (s := s) rfl
    obtain ⟨body, -⟩ := Line.ok_iff.1 (hs l)
    rw [State.resting, lines]
    exact Works.atRest_ok body.quietLow body.quietHigh
  freeze s hs l := by
    have get : s.frozen.lines[l] = { s.lines[l] with frames := [] } := by
      rw [State.frozen_eq]
      exact State.mapLines_get l (fun x => { x with frames := [] }) s
    obtain ⟨body, -⟩ := Line.ok_iff.1 (hs l)
    rw [get, State.frozen_running, Line.ok_iff]
    exact ⟨{ body.held with single := Nat.zero_le _, closed := nofun }, rfl⟩
  lose s hs l := by
    have get : s.lost.lines[l] = s.lines[l].dip := by
      rw [State.lost_eq]
      exact State.mapLines_get l _ s
    obtain ⟨body, -⟩ := Line.ok_iff.1 (hs l)
    rw [get, State.lost_running, Line.ok_iff]
    exact ⟨⟨body.enable, body.quietLow, body.quietHigh, nofun, nofun, Nat.zero_le _, nofun⟩, rfl⟩
  reset _ _ := by
    obtain ⟨-, -, -, -, lines, -⟩ := resetIsGood
    exact lines

/-! ## The marker inputs (07 R133, R135) -/

theorem act_markers {s t : State} {b : Bank} (act : Act s t b) (hs : s.MarkersOk) : t.MarkersOk := by
  obtain ⟨markers, pending⟩ := hs
  constructor
  · intro m
    by_cases own : b = .marker
    · subst own
      exact act.effect m (markers m)
    · rw [act.markers_kept own]
      exact markers m
  · intro p m
    by_cases own : b = .pending
    · subst own
      exact act.effect p m (pending p m)
    · rw [act.pending_kept own]
      exact pending p m

theorem kept_markers : Kept State.MarkersOk where
  acts := act_markers
  beside h hs := by
    rw [h.frame]
    exact hs
  advance s hs := by
    refine ⟨fun m => ?_, hs.2⟩
    have get : s.advanceTick.markers[m] = { s.markers[m] with rawSeen := 0 } :=
      State.mapMarkers_get m (fun y => { y with rawSeen := 0 }) s
    rw [get]
    exact hs.1 m
  release straps s _ hs := by
    refine resting_of_begun (P := State.MarkersOk) act_markers ⟨fun m => ?_, hs.2⟩
    have get : (s.begun straps).markers[m] = s.markers[m].release := State.mapMarkers_get m _ s
    rw [get]
    exact ⟨(hs.1 m).1, Nat.zero_le _, fun _ => rfl, nofun⟩
  freeze s hs := by
    refine ⟨fun m => ?_, by rw [State.frozen_eq]; exact hs.2⟩
    have get : s.frozen.markers[m] = { s.markers[m] with rawSeen := 0, candidate := none, waiting := [] } := by
      rw [State.frozen_eq]
      exact State.mapMarkers_get m (fun y => { y with rawSeen := 0, candidate := none, waiting := [] }) s
    rw [get]
    exact ⟨(hs.1 m).1, Nat.zero_le _, fun _ => rfl, nofun⟩
  lose s hs := by
    constructor
    · intro m
      have get : s.lost.markers[m] = s.markers[m].dip := by
        rw [State.lost_eq]
        exact State.mapMarkers_get m Marker.dip s
      rw [get]
      exact ⟨Nat.zero_le _, Nat.zero_le _, fun _ => rfl, nofun⟩
    · intro p m
      rw [State.lost_eq]
      change (Vector.replicate 3 (Vector.replicate 4 0))[p][m] ≤ 255
      rw [replicate_get, replicate_get]
      exact Nat.zero_le _
  reset _ _ := by
    obtain ⟨-, -, -, -, -, -, markers, -⟩ := resetIsGood
    exact markers

/-- Settles O56: `kept_interps`, `kept_lines` and `kept_markers`. -/
theorem everyStepKeepsTheInputs : Obligations.EveryStepKeepsTheInputs :=
  fun _ _ interps lines markers run =>
    ⟨kept_interps.step (fun _ _ hs => hs) run interps, kept_lines.step (fun _ _ hs => hs) run lines,
      kept_markers.step (fun _ _ hs => hs) run markers⟩

end Sys2Proof.Machine

/-! PROOF. What every step keeps of the ports and of the record store (08, 09). -/

namespace Sys2Proof.Machine

/-! ## Ports whose readings follow the tick -/

theorem Item.reread_type (n : Nat) (r : Reading) (i : Item) : (i.reread n r).type = i.type := by
  cases i with
  | record x => cases x <;> rfl
  | notice x =>
    obtain ⟨body, repeats⟩ := x
    cases body <;> rfl
  | _ => rfl

theorem Notice.reread_kind (n : Nat) (r : Reading) (x : Notice) : (x.reread n r).body.kind = x.body.kind := by
  obtain ⟨body, repeats⟩ := x
  cases body <;> rfl

theorem Notice.reread_repeats (n : Nat) (r : Reading) (x : Notice) : (x.reread n r).repeats = x.repeats := by
  obtain ⟨body, repeats⟩ := x
  cases body <;> rfl

theorem Port.reread_ok {q : Port} (p : Fin 3) (n : Nat) (r : Reading) (h : q.Ok) : (q.reread p n r).Ok := by
  have settled := h.body
  obtain ⟨silence, hold, beat, lagging, out, down, credits, cmds, kinds, repeats, low, high, replies⟩ := h
  refine ⟨silence, hold, beat, lagging, fun leaves => ?_, fun lost => ?_, credits, (List.length_map ..).trans_le cmds, ?_,
    fun x hx => ?_, low, high, fun c hc i hi => ?_⟩
  · obtain ⟨none, queue, notices, pending⟩ := out leaves
    exact ⟨none, queue, List.map_eq_nil_iff.2 notices, pending⟩
  · obtain ⟨none, tx, attention⟩ := down lost
    exact ⟨List.map_eq_nil_iff.2 none, Option.map_eq_none_iff.2 tx, attention⟩
  · refine (congrArg List.Nodup ?_).mp kinds
    change _ = (q.notices.map (Notice.reread n r)).map fun x => x.body.kind
    rw [List.map_map]
    exact List.map_congr_left fun x _ => (x.reread_kind n r).symm
  · obtain ⟨y, hy, rfl⟩ := List.mem_map.1 hx
    rw [y.reread_repeats]
    exact repeats y hy
  · obtain ⟨d, hd, rfl⟩ := List.mem_map.1 hc
    obtain ⟨j, hj, rfl⟩ := List.mem_map.1 hi
    rw [j.reread_type]
    exact replies d hd j hj

/-! ## Ports (08 R155, 09 R166, R169, R170) -/

theorem act_ports {s t : State} {b : Bank} (act : Act s t b) (hs : s.PortsOk) : t.PortsOk := by
  intro p
  cases b with
  | port => exact act.effect.1.good p (hs p)
  | permit => exact act.effect.good p (hs p)
  | reading =>
    obtain ⟨r, rfl, -⟩ := act.effect
    rw [State.rereadAs_port]
    exact Port.reread_ok p _ r (hs p)
  | _ =>
    rw [act.ports_kept (by nofun) (by nofun) (by nofun)]
    exact hs p

/-- The ports of a core at its first tick, of which a cold one has sampled the permits (09 R177). -/
theorem State.begun_port (straps : BitVec 3) (s : State) (p : Fin 3) : (s.begun straps).ports[p] =
    if s.mon.cause = .powerOn then Port.settle s.tick { s.ports[p] with permit := straps.getLsbD p.val } else s.ports[p] := by
  change (if s.mon.cause = .powerOn then (s.mapPorts fun p q => { q with permit := straps.getLsbD p.val }).ports
    else s.ports)[p] = _
  split
  · exact State.mapPorts_get p (fun p q => { q with permit := straps.getLsbD p.val }) s
  · rfl

theorem State.frozen_port (s : State) (p : Fin 3) : s.frozen.ports[p] = Port.settle s.tick { s.ports[p] with tx := none } := by
  rw [State.frozen_eq]
  exact State.mapPorts_get p (fun _ q => { q with tx := none }) s

theorem State.lost_port (s : State) (p : Fin 3) : s.lost.ports[p] = s.ports[p].dip.settle s.tick := by
  rw [State.lost_eq]
  exact State.mapPorts_get p (fun _ q => q.dip) s

theorem Port.dip_body {q : Port} (h : q.BodyOk) : q.dip.BodyOk := by
  obtain ⟨r, hr⟩ : ∃ r, r = q.dip := ⟨_, rfl⟩
  have state : r.state = .down := by rw [hr]; rfl
  have service : r.inService = false := by rw [hr]; rfl
  have timers : r.holdTimer = none ∧ r.hbTimer = none := by rw [hr]; exact ⟨rfl, rfl⟩
  have empty : r.credits = 0 ∧ r.queue = [] ∧ r.notices = [] ∧ r.hbPending = false := by rw [hr]; exact ⟨rfl, rfl, rfl, rfl⟩
  have idle : r.cmds = [] ∧ r.tx = none ∧ r.attention = 0 := by rw [hr]; exact ⟨rfl, rfl, rfl⟩
  have pacing : r.pacing = q.pacing := by rw [hr]; rfl
  rw [← hr]
  refine ⟨?_, ?_, fun _ => empty, fun _ => idle, ?_, ?_, ?_, ?_, ?_, ?_, ?_⟩
  · rw [timers.1, state]
    exact iff_of_false Bool.false_ne_true (by decide)
  · rw [timers.2, service]
    exact iff_of_false Bool.false_ne_true fun serves => Bool.false_ne_true serves.1
  · rw [empty.1]
    exact Nat.zero_le _
  · rw [idle.1]
    exact Nat.zero_le _
  · rw [empty.2.2.1]
    exact List.nodup_nil
  · rw [empty.2.2.1]
    exact fun _ mem => absurd mem List.not_mem_nil
  · rw [pacing]
    exact h.holdLow
  · rw [pacing]
    exact h.holdHigh
  · rw [Port.RepliesOk, idle.1]
    exact fun _ mem => absurd mem List.not_mem_nil

theorem kept_ports : Kept State.PortsOk where
  acts := act_ports
  beside h hs := by
    rw [h.frame]
    exact hs
  advance _ hs := hs
  release straps s _ hs := by
    refine resting_of_begun act_ports fun p => ?_
    rw [State.begun_port]
    split
    · exact Port.BodyOk.settle _ { (hs p).body with }
    · exact hs p
  freeze s hs p := by
    rw [State.frozen_port]
    exact Port.BodyOk.settle _ { (hs p).body with down := fun lost =>
      ⟨((hs p).body.down lost).1, rfl, ((hs p).body.down lost).2.2⟩ }
  lose s hs p := by
    rw [State.lost_port]
    exact (Port.dip_body (hs p).body).settle _
  reset _ _ := by
    obtain ⟨-, -, -, -, -, -, -, ports, -⟩ := resetIsGood
    exact ports

/-! ## RSTN (10 R189) -/

theorem State.RstnOk.congr {s t : State} (asserted : t.rstnAsserted = s.rstnAsserted)
    (down : s.rstnAsserted = true → ∀ p : Fin 3, s.ports[p].state = .down → t.ports[p].state = .down)
    (rest : s.rstnAsserted = true → ∀ l : Fin 8, s.lines[l].receiving = false → t.lines[l].receiving = false)
    (h : s.RstnOk) : t.RstnOk := by
  intro low
  rw [asserted] at low
  obtain ⟨ports, lines⟩ := h low
  exact ⟨fun p => down low p (ports p), fun l => rest low l (lines l)⟩

theorem act_rstn {s t : State} {b : Bank} (act : Act s t b) (hs : s.RstnOk) : t.RstnOk := by
  by_cases own : b = .rstn
  · subst own
    exact act.effect
  refine hs.congr (act.rstn_kept own).1 (fun low p down => ?_) fun low l rest => ?_
  · cases b with
    | port => exact act.effect.1.down low p down
    | permit => exact act.effect.down low p down
    | reading =>
      obtain ⟨r, rfl, -⟩ := act.effect
      rw [State.rereadAs_port]
      exact down
    | _ =>
      rw [act.ports_kept (by nofun) (by nofun) (by nofun)]
      exact down
  · by_cases line : b = .line
    · subst line
      exact (act.effect l).2 low rest
    · rw [act.lines_kept line]
      exact rest

theorem kept_rstn : Kept State.RstnOk where
  acts := act_rstn
  beside h hs := by
    rw [h.frame]
    exact hs
  advance _ hs := hs
  release straps s _ hs := by
    refine resting_of_begun act_rstn (State.RstnOk.congr (s := s) rfl (fun _ p down => ?_) (fun _ _ rest => rest) hs)
    rw [State.begun_port]
    split <;> exact down
  freeze s _ := by
    rw [State.frozen_eq]
    exact nofun
  lose s _ := by
    rw [State.lost_eq]
    exact nofun
  reset _ _ := nofun

/-- Settles O58: `kept_ports` and `kept_rstn`. -/
theorem everyStepKeepsThePorts : Obligations.EveryStepKeepsThePorts :=
  fun _ _ ports rstn run => ⟨kept_ports.step (fun _ _ hs => hs) run ports, kept_rstn.step (fun _ _ hs => hs) run rstn⟩

/-! ## The record store (08 R145, R151, R152) -/

/-- The store is good: both parts. -/
def State.StoreOk (s : State) : Prop := s.QuotasOk ∧ s.PoolOk

/-- What the store's goodness reads of the entries: their numbers and their references. -/
theorem State.StoreOk.reread {s : State} (r : Reading) (h : s.StoreOk) : (s.rereadAs r).StoreOk := by
  have queue (p : Fin 3) : (s.rereadAs r).ports[p].queue = s.ports[p].queue := by rw [State.rereadAs_port]; rfl
  have quota (p : Fin 3) : (s.rereadAs r).ports[p].quota = s.ports[p].quota := by rw [State.rereadAs_port]; rfl
  have bare : ({ s.rereadAs r with pool := s.pool } : State).StoreOk :=
    State.store_congr (s := s) queue quota rfl rfl h.1 h.2
  obtain ⟨quotas, sorted, live, held⟩ := bare
  have ids : (s.rereadAs r).pool.entries.map PoolEntry.id = s.pool.entries.map PoolEntry.id := by
    change (s.pool.entries.map _).map PoolEntry.id = _
    rw [List.map_map]
    rfl
  refine ⟨quotas, by rw [ids]; exact sorted, fun e mem => ?_, fun p => ⟨(held p).1, fun id mem => ?_⟩⟩
  · obtain ⟨x, hx, rfl⟩ := List.mem_map.1 mem
    exact live x hx
  · rw [ids]
    exact (held p).2 id mem

theorem act_store {s t : State} {b : Bank} (act : Act s t b) (hs : s.StoreOk) : t.StoreOk := by
  cases b with
  | port => exact act.effect.1.store hs.1 hs.2
  | permit => exact act.effect.store hs.1 hs.2
  | reading =>
    obtain ⟨r, rfl, -⟩ := act.effect
    exact hs.reread r
  | _ =>
    have ports := act.ports_kept (by nofun) (by nofun) (by nofun)
    obtain ⟨entries, next⟩ := act.entries_kept (by nofun) (by nofun)
    exact State.store_congr (fun p => by rw [ports]) (fun p => by rw [ports]) entries next hs.1 hs.2

theorem kept_store : Kept State.StoreOk where
  acts := act_store
  beside h hs := by
    rw [h.frame]
    exact hs
  advance _ hs := hs
  release straps s _ hs := by
    refine resting_of_begun act_store (State.store_congr (s := s) (fun p => ?_) (fun p => ?_) rfl rfl hs.1 hs.2)
    all_goals
      rw [State.begun_port]
      split <;> rfl
  freeze s hs := by
    refine State.store_congr (fun p => ?_) (fun p => ?_) ?_ ?_ hs.1 hs.2
    · rw [State.frozen_port]; rfl
    · rw [State.frozen_port]; rfl
    · rw [State.frozen_eq]
    · rw [State.frozen_eq]
  lose s hs := by
    obtain ⟨ranges, sum⟩ := hs.1
    have quota (p : Fin 3) : s.lost.ports[p].quota = s.ports[p].quota := by rw [State.lost_port]; rfl
    have queue (p : Fin 3) : s.lost.ports[p].queue = [] := by rw [State.lost_port]; rfl
    have entries : s.lost.pool.entries = [] := by rw [State.lost_eq]
    refine ⟨⟨fun p => by rw [quota]; exact ranges p, Nat.le_trans (State.commitmentSum_le fun p => ?_) sum⟩, ?_, ?_, fun p => ?_⟩
    · rw [Port.commitment, Port.commitment, quota, queue, List.length_nil, Nat.max_zero]
      exact Nat.le_max_left ..
    · rw [entries]
      exact .nil
    · rw [entries]
      exact fun _ mem => absurd mem List.not_mem_nil
    · rw [queue]
      exact ⟨.nil, fun _ mem => absurd mem List.not_mem_nil⟩
  reset _ _ := by
    obtain ⟨-, -, -, -, -, -, -, -, -, quotas, pool, -⟩ := resetIsGood
    exact ⟨quotas, pool⟩

/-- Settles O59: `kept_store`. -/
theorem everyStepKeepsTheRecordStore : Obligations.EveryStepKeepsTheRecordStore :=
  fun _ _ quotas pool run => kept_store.step (fun _ _ hs => hs) run ⟨quotas, pool⟩

end Sys2Proof.Machine

/-! PROOF. What every step keeps of the timescale and its controller, and of the monitor (01, 02, 10). -/

namespace Sys2Proof.Machine

/-! ## The counter and its controller (01 R1, R2; 02 R25) -/

/-- The counter, its controller and the readings taken of it are good. -/
def State.TimescaleOk (s : State) : Prop := s.ClockOk ∧ ∀ i : Fin 13, s.interps[i].ReadingsOk

theorem State.timescaleOk_iff (s : State) : s.TimescaleOk ↔ s.TimeOk ∧ s.DisciplineOk := by
  constructor
  · rintro ⟨⟨⟨sec, ns, frac, inc, excess⟩, disc⟩, readings⟩
    exact ⟨⟨sec, ns, frac, inc, excess, readings⟩, disc⟩
  · rintro ⟨⟨sec, ns, frac, inc, excess, readings⟩, disc⟩
    exact ⟨⟨⟨sec, ns, frac, inc, excess⟩, disc⟩, readings⟩

theorem State.TimescaleOk.congr {s t : State} (time : t.time = s.time) (disc : t.disc = s.disc)
    (invalid : t.mon.invalid = s.mon.invalid) (readings : ∀ i : Fin 13, s.interps[i].ReadingsOk → t.interps[i].ReadingsOk)
    (h : s.TimescaleOk) : t.TimescaleOk :=
  ⟨h.1.congr time disc invalid, fun i => readings i (h.2 i)⟩

theorem act_timescale {s t : State} {b : Bank} (act : Act s t b) (hs : s.TimescaleOk) : t.TimescaleOk := by
  obtain ⟨clock, readings⟩ := hs
  have goodReadings (i : Fin 13) : t.interps[i].ReadingsOk := by
    cases b with
    | interp => exact (act.effect i).2 clock (readings i)
    | reading =>
      obtain ⟨r, rfl, ok⟩ := act.effect
      rw [State.rereadAs_interp]
      exact Interp.reread_readings _ (ok clock) (readings i)
    | _ =>
      rw [act.interps_kept (by nofun) (by nofun)]
      exact readings i
  refine ⟨?_, goodReadings⟩
  cases b with
  | clock => exact act.effect.1 clock
  | invalid =>
    obtain ⟨time, -, disc⟩ := act.clock_kept (by nofun)
    obtain ⟨value, terms, state, -⟩ := clock
    rw [State.ClockOk, State.ValueOk, State.DisciplineOk, time, disc]
    exact ⟨value, terms, state, fun set => absurd (act.effect.symm.trans set) Bool.false_ne_true⟩
  | _ =>
    obtain ⟨time, -, disc⟩ := act.clock_kept (by nofun)
    exact clock.congr time disc (by rw [act.mon_kept (by nofun)])

/-- A controller that has entered UNSET (01 R17, 02 R49). -/
theorem Discipline.clear_ok {d : Discipline} (n : Option (Nat × Quality)) (h : d.TermsOk) :
    ({ d.clear with qualityAt := n } : Discipline).TermsOk ∧ ({ d.clear with qualityAt := n } : Discipline).StateOk := by
  obtain ⟨rate, -, settings⟩ := h
  refine ⟨⟨rate, Nat.zero_le _, settings⟩, fun _ => rfl, ?_, ?_, ?_, nofun, Nat.zero_le _, Nat.zero_le _, Nat.zero_le _,
    Nat.zero_le _⟩
  · exact iff_of_false Bool.false_ne_true (show ¬(Quality.unset = .locked ∨ Quality.unset = .holdover) by decide)
  · exact iff_of_false Bool.false_ne_true (show ¬(Quality.unset = .locked ∨ Quality.unset = .holdover) by decide)
  · exact iff_of_false Bool.false_ne_true (show ¬Quality.unset = .settling by decide)

/-- The counter that a core holds while it waits for its release. -/
theorem State.held_inRange {s : State} (h : s.ValueOk) : s.held.InRange := by
  obtain ⟨⟨sec, ns, frac, -⟩, -⟩ := s.valueOk_iff.1 h
  exact ⟨sec, ns, frac, fun none => absurd rfl none⟩

theorem kept_timescale : Kept State.TimescaleOk where
  acts := act_timescale
  beside h hs := hs.congr (by rw [h.frame]) (by rw [h.frame]) h.invalid fun i => by
    rw [show _ = _ from congrArg State.interps h.frame]
    exact id
  advance s hs := by
    obtain ⟨⟨value, disc⟩, readings⟩ := hs
    obtain ⟨range, inc⟩ := s.valueOk_iff.1 value
    refine ⟨⟨(State.valueOk_iff _).2 ⟨?_, ?_⟩, disc⟩, fun i => ?_⟩
    · have small : s.time.inc < Config.unitsPerSec := by rw [inc]; exact increment_lt _ _
      exact Timescale.addTick_inRange range small
    · exact s.time.addTick_inc_epoch.1.trans inc
    · have get : s.advanceTick.interps[i] = { s.interps[i] with captured := 0 } :=
        State.mapInterps_get i (fun x => { x with captured := 0 }) s
      rw [get]
      exact readings i
  release straps s _ hs := by
    obtain ⟨⟨value, terms, -, -⟩, -⟩ := hs
    refine resting_of_begun act_timescale ⟨⟨(State.valueOk_iff _).2 ⟨?_, ?_⟩, ?_⟩, fun i => ?_⟩
    · exact Timescale.addTick_inRange (State.held_inRange value) (increment_lt _ _)
    · exact s.held.addTick_inc_epoch.1
    · obtain ⟨terms, state⟩ := Discipline.clear_ok (s.released straps).disc.qualityAt terms
      exact ⟨terms, state, fun _ => ⟨rfl, rfl⟩⟩
    · have get : (s.begun straps).interps[i] = s.interps[i].release := State.mapInterps_get i Interp.release s
      rw [get]
      exact ⟨nofun, nofun⟩
  freeze s hs := by
    refine hs.congr (by rw [State.frozen_eq]) (by rw [State.frozen_eq]) ?_ fun i _ => ?_
    · rw [State.frozen_eq, State.latching]
    · have get : s.frozen.interps[i] = s.interps[i].freeze := by rw [State.frozen_eq]; exact State.mapInterps_get i _ s
      rw [get]
      exact ⟨nofun, nofun⟩
  lose s hs := by
    obtain ⟨⟨value, terms, -, -⟩, -⟩ := hs
    obtain ⟨terms, state⟩ := Discipline.clear_ok s.disc.qualityAt terms
    refine ⟨⟨?_, ?_⟩, fun i => ?_⟩
    · rw [State.valueOk_iff, State.lost_eq]
      exact ⟨State.held_inRange value, rfl⟩
    · rw [State.lost_eq]
      exact ⟨terms, state, fun _ => ⟨rfl, rfl⟩⟩
    · have get : s.lost.interps[i] = .reset := by
        rw [State.lost_eq]
        exact State.mapInterps_get i (fun _ => .reset) s
      rw [get]
      exact Interp.reset_ok.2
  reset _ _ := by
    obtain ⟨time, -, disc, -⟩ := resetIsGood
    exact ((State.timescaleOk_iff _).2 ⟨time, disc⟩).congr rfl rfl rfl fun _ => id

/-! ## SECP (01 R19, R20) -/

theorem act_secp {s t : State} {b : Bank} (act : Act s t b) (hs : s.SecpOk) : t.SecpOk := by
  cases b with
  | clock => exact act.effect.2 hs
  | secp => exact act.effect hs
  | _ =>
    obtain ⟨time, -, disc⟩ := act.clock_kept (by nofun)
    obtain ⟨secp, -, fell⟩ := act.secp_kept (by nofun) (by nofun)
    exact hs.congr fell secp act.fixed.2.1 (by rw [time]) (by rw [disc])

theorem State.secpOk_of_none {s : State} (h : s.secpFell = none) : s.SecpOk := by
  rw [State.SecpOk, h]
  nofun

theorem kept_secp : Kept State.SecpOk where
  acts := act_secp
  beside h hs := by
    rw [h.frame]
    exact hs
  advance s hs f hf := by
    obtain ⟨low, early, -⟩ := hs f hf
    exact ⟨low, Nat.le_succ_of_le early, fun now => absurd (now ▸ early) (Nat.not_succ_le_self _)⟩
  release straps s _ _ := resting_of_begun act_secp (State.secpOk_of_none rfl)
  freeze s _ := State.secpOk_of_none (by rw [State.frozen_eq])
  lose s _ := State.secpOk_of_none (by rw [State.lost_eq])
  reset _ _ := State.secpOk_of_none rfl

/-- Settles O55: `kept_timescale` and `kept_secp`. -/
theorem everyStepKeepsTheTimescale : Obligations.EveryStepKeepsTheTimescale := by
  intro s t run
  refine ⟨fun time disc => ?_, kept_secp.step (fun _ _ hs => hs) run⟩
  exact (State.timescaleOk_iff t).1 (kept_timescale.step (fun _ _ hs => hs) run ((State.timescaleOk_iff s).2 ⟨time, disc⟩))

/-! ## The monitor (10 R183) -/

/-- What is good of a monitor beside the level of SECP. -/
structure Monitor.Good (m : Monitor) (secp : Bool) : Prop where
  rc : m.rc ≤ Config.startupCycles
  good : m.good ≤ Config.goodCycles
  noTick : m.noTick ≤ Config.stopCycles
  low : m.phase ≠ .run → secp = false
  invalid : m.phase ≠ .run → m.phase ≠ .stopped → m.invalid = true
  empty : m.phase = .run → m.latched = false
  latch : m.latchReleased = true → m.latched = true
  vio : m.phase ≠ .startup → m.vio = true

theorem State.monitorOk_iff (s : State) : s.MonitorOk ↔ s.mon.Good s.secp := by
  rw [State.MonitorOk, State.not_running_iff, State.running_iff]
  exact ⟨fun ⟨rc, good, noTick, low, invalid, empty, latch, vio⟩ => ⟨rc, good, noTick, low, invalid, empty, latch, vio⟩,
    fun ⟨rc, good, noTick, low, invalid, empty, latch, vio⟩ => ⟨rc, good, noTick, low, invalid, empty, latch, vio⟩⟩

/-- The monitor and SECP are good. -/
def State.Watched (s : State) : Prop := s.mon.Good s.secp

theorem Monitor.Good.reset (vio : Bool) : ({ Monitor.reset with vio := vio } : Monitor).Good State.reset.secp where
  rc := Nat.zero_le _
  good := Nat.zero_le _
  noTick := Nat.zero_le _
  low _ := rfl
  invalid _ _ := rfl
  empty := nofun
  latch := nofun
  vio no := absurd rfl no

/-- A monitor in RUN holds nothing of SECP and INVALID. -/
theorem Monitor.Good.inRun {m : Monitor} {a b : Bool} {invalid : Bool} (run : m.phase = .run) (h : m.Good a) :
    ({ m with invalid := invalid } : Monitor).Good b :=
  { h with low := fun held => absurd run held, invalid := fun held => absurd run held }

/-- Actions keep the monitor good, if they leave it and SECP where the core does not run. -/
theorem State.Watched.works {K : List Bank} {s t : State} (works : Works K s t)
    (quiet : s.running = false → t.secp = s.secp ∧ t.mon = s.mon) (h : s.Watched) : t.Watched := by
  cases run : s.running with
  | true =>
    obtain ⟨-, -, -, -, mon⟩ := works.fixed
    rw [State.Watched, mon]
    exact h.inRun ((State.running_iff s).1 run)
  | false =>
    obtain ⟨secp, mon⟩ := quiet run
    rw [State.Watched, secp, mon]
    exact h

theorem State.Watched.runs {K : List Bank} {s t : State} (run : s.running = true) (works : Works K s t) (h : s.Watched) :
    t.Watched := h.works works fun held => absurd (run.symm.trans held) (by decide)

/-- The next tick of a core that runs. -/
theorem State.Watched.advance {s : State} (h : s.Watched) : s.advanceTick.Watched :=
  ⟨h.rc, h.good, Nat.zero_le _, h.low, h.invalid, h.empty, h.latch, h.vio⟩

theorem State.Watched.closes {s : State} (run : s.running = true) (h : s.Watched) :
    s.closeTick.Watched ∧ s.closeTick.running = true :=
  ⟨h.runs run (Works.closeTick s), (Works.closeTick s).running.trans run⟩

theorem State.Watched.rollover {s : State} (run : s.running = true) (h : s.Watched) : s.rollOver.Watched := by
  rw [State.rollOver]
  split
  · exact h.runs run (Works.takeRollover s)
  · split
    · obtain ⟨closed, running⟩ := h.closes run
      obtain ⟨u, hu⟩ : ∃ u, u = s.closeTick := ⟨_, rfl⟩
      rw [← hu] at closed running ⊢
      exact closed.advance.runs (s := u.advanceTick) running (Works.takeRollover _)
    · exact h

theorem State.releaseReady_phase {s : State} (ready : s.releaseReady = true) : s.mon.phase ≠ .startup := by
  intro start
  rw [State.releaseReady, start] at ready
  cases ready

theorem State.releaseCore_resting (straps : BitVec 3) (s : State) : s.releaseCore straps = (s.resting straps).takeLatch :=
  State.releaseCore_eq ..

/-- A monitor at the release (10 R188). -/
theorem Monitor.Good.released {m : Monitor} {a b : Bool} (start : m.phase ≠ .startup) (h : m.Good a) :
    ({ m with phase := .run, noTick := 0, invalid := true, latched := false, latchReleased := false } : Monitor).Good b where
  rc := h.rc
  good := h.good
  noTick := Nat.zero_le _
  low held := absurd rfl held
  invalid _ _ := rfl
  empty _ := rfl
  latch := nofun
  vio _ := h.vio start

theorem State.Watched.releases {straps : BitVec 3} {s : State} (ready : s.releaseReady = true) (h : s.Watched) :
    (s.releaseCore straps).Watched := by
  obtain ⟨u, hu⟩ : ∃ u, u = s.resting straps := ⟨_, rfl⟩
  have mon : u.mon = { s.mon with phase := .run, noTick := 0, invalid := true } := by
    rw [hu, (Works.resting straps s).mon_kept (by simp)]
    rfl
  rw [State.releaseCore_resting, ← hu]
  clear hu
  obtain ⟨t, ht⟩ : ∃ t, t = u.assertRstn := ⟨_, rfl⟩
  have kept : t.mon = u.mon := by rw [ht]; exact (Works.assertRstn u).mon_kept (by simp)
  have done (x : Bool) := h.released (b := x) (State.releaseReady_phase ready)
  rw [State.takeLatch_eq ht]
  split
  · rw [State.Watched]
    dsimp only
    rw [kept, mon]
    exact done _
  · next quiet =>
    rw [Bool.or_eq_true, not_or, Bool.not_eq_true, mon] at quiet
    have latched : s.mon.latched = false := quiet.1
    have released : s.mon.latchReleased = false :=
      Bool.eq_false_iff.2 fun set => Bool.false_ne_true (latched.symm.trans (h.latch set))
    have same : u.mon = { s.mon with
        phase := .run, noTick := 0, invalid := true, latched := false, latchReleased := false } := by
      rw [mon]
      dsimp only
      rw [latched, released]
    rw [State.Watched, same]
    exact done _

/-- RSTN goes back into the latch as it stands (10 R189). -/
theorem State.latching_latch {s : State} (h : s.Watched) : s.latching.latchReleased = true → s.latching.latched = true := by
  rw [State.latching]
  dsimp only
  split
  · next asserted => exact fun _ => by rw [asserted]; rfl
  · exact fun set => by rw [h.latch set, Bool.or_true]

theorem State.Watched.freezes {s : State} (run : s.running = true) (h : s.Watched) : s.frozen.Watched := by
  have latch := State.latching_latch h
  have start : s.mon.phase ≠ .startup := by rw [(State.running_iff s).1 run]; decide
  rw [State.Watched, State.frozen_eq]
  exact ⟨h.rc, Nat.zero_le _, Nat.le_refl _, fun _ => rfl, fun _ stop => absurd rfl stop, nofun, latch, fun _ => h.vio start⟩

theorem State.Watched.loses {s : State} (start : s.mon.phase ≠ .startup) (h : s.Watched) : s.lost.Watched := by
  have latch := State.latching_latch h
  rw [State.Watched, State.lost_eq]
  exact ⟨Nat.zero_le _, Nat.zero_le _, h.noTick, fun _ => rfl, fun _ _ => rfl, nofun, latch, fun _ => h.vio start⟩

/-- Every command keeps the monitor good. -/
theorem exec_watched (c : Instr) (s : State) : ∃ t, exec c s = .next t ∧ (s.Watched → t.Watched) := by
  by_cases other : ofMonitor c = false
  · obtain ⟨t, runs, works, quiet⟩ := exec_works c s other
    exact ⟨t, runs, State.Watched.works works quiet⟩
  cases c with
  | rollover =>
    refine ⟨_, rfl, fun h => ?_⟩
    split
    · next run => exact h.rollover run
    · exact h
  | powerOn =>
    refine ⟨_, rfl, fun _ => ?_⟩
    have levels (m : Fin 4) (u : State) :
        Works [.marker] u (u.updMarker m fun y => { y with level := s.markers[m].level }) :=
      Works.putMarker fun ok => ok
    have works := Works.sweep levels allMarkers { State.reset with
      pending := s.pending, free := s.free, straps := s.straps, rstnLow := s.rstnLow
      mon := { Monitor.reset with vio := s.mon.vio } }
    refine State.Watched.works works (fun _ => ⟨(works.secp_kept (by simp) (by simp)).1, works.mon_kept (by simp)⟩) ?_
    exact Monitor.Good.reset s.mon.vio
  | startupDelayEnd =>
    refine ⟨_, rfl, fun h => ?_⟩
    split
    · next now =>
      rw [Bool.and_eq_true, Bool.and_eq_true, beq_iff_eq] at now
      obtain ⟨⟨start, -⟩, vio⟩ := now
      have held : s.mon.phase ≠ .run := by rw [start]; decide
      exact ⟨Nat.le_refl _, h.good, h.noTick, fun _ => h.low held,
        fun _ _ => h.invalid held (by rw [start]; decide), nofun, h.latch, fun _ => vio⟩
    · exact h
  | coreRelease straps =>
    refine ⟨_, rfl, fun h => ?_⟩
    split
    · next ready => exact h.releases ready
    · exact h
  | coreTick =>
    refine ⟨_, rfl, fun h => ?_⟩
    split
    · next run => exact (h.closes run).1.advance
    · split
      · next ready => exact h.releases ready
      · exact ⟨h.rc, h.good, Nat.zero_le _, h.low, h.invalid, h.empty, h.latch, h.vio⟩
  | clockStop =>
    refine ⟨_, rfl, fun h => ?_⟩
    split
    · next run =>
      obtain ⟨closed, running⟩ := h.closes run
      exact closed.freezes running
    · exact ⟨h.rc, Nat.zero_le _, Nat.le_refl _, h.low, h.invalid, h.empty, h.latch, h.vio⟩
  | clockDropout =>
    refine ⟨_, rfl, fun h => ?_⟩
    split
    · exact h
    · exact ⟨h.rc, Nat.zero_le _, Nat.min_le_right .., h.low, h.invalid, h.empty, h.latch, h.vio⟩
  | clockGoodCountComplete =>
    refine ⟨_, rfl, fun h => ?_⟩
    split
    · exact h
    · exact ⟨h.rc, Nat.le_refl _, Nat.zero_le _, h.low, h.invalid, h.empty, h.latch, h.vio⟩
  | supplyDip =>
    refine ⟨_, rfl, fun h => ?_⟩
    split
    · exact h
    · split
      · next early =>
        have held := Kept.phase_of_early early
        refine ⟨Nat.zero_le _, h.good, h.noTick, fun _ => h.low held, fun _ _ => h.invalid held fun stop => ?_, nofun, h.latch,
          fun no => absurd rfl no⟩
        rw [Monitor.beforeFirstRelease, stop] at early
        cases early
      · next later =>
        refine h.loses fun start => later ?_
        rw [Monitor.beforeFirstRelease, start]
        rfl
  | supplyRecovery =>
    refine ⟨_, rfl, fun h => ?_⟩
    split
    · next dip =>
      have held : s.mon.phase ≠ .run := by rw [dip]; decide
      exact ⟨Nat.zero_le _, h.good, h.noTick, fun _ => h.low held, fun _ _ => h.invalid held (by rw [dip]; decide), nofun,
        h.latch, fun _ => h.vio (by rw [dip]; decide)⟩
    · next start =>
      rw [State.Watched]
      dsimp only [State.updMon]
      split
      · exact ⟨h.rc, h.good, h.noTick, h.low, h.invalid, h.empty, h.latch, h.vio⟩
      · exact ⟨h.rc, h.good, h.noTick, h.low, h.invalid, h.empty, h.latch, fun _ => rfl⟩
    all_goals exact h
  | dipRecoveryEnd =>
    refine ⟨_, rfl, fun h => ?_⟩
    split
    · next now =>
      have held : s.mon.phase ≠ .run := by rw [now]; decide
      exact ⟨show Config.dipCycles ≤ Config.startupCycles by decide, h.good, h.noTick, fun _ => h.low held,
        fun _ _ => h.invalid held (by rw [now]; decide), nofun, h.latch, fun _ => h.vio (by rw [now]; decide)⟩
    · exact h
  | rstnAssertion =>
    refine ⟨_, rfl, fun h => ?_⟩
    split
    · exact h
    · dsimp only
      split
      · next held =>
        have held : s.mon.phase ≠ .run := (State.not_running_iff s).1 (by simpa using held)
        exact ⟨h.rc, h.good, h.noTick, h.low, h.invalid, fun run => absurd run held, fun _ => rfl, h.vio⟩
      · split
        · exact h
        · exact State.Watched.works (Works.assertRstn _)
            (fun _ => ⟨((Works.assertRstn _).secp_kept (by simp) (by simp)).1, (Works.assertRstn _).mon_kept (by simp)⟩) h
  | rstnRelease straps =>
    refine ⟨_, rfl, fun h => ?_⟩
    split
    · dsimp only
      split
      · next held =>
        have held : s.mon.phase ≠ .run := (State.not_running_iff s).1 (by simpa using held)
        exact ⟨h.rc, h.good, h.noTick, h.low, h.invalid, fun run => absurd run held, fun _ => rfl, h.vio⟩
      · split
        · exact State.Watched.works (Works.releaseRstn _)
            (fun _ => ⟨((Works.releaseRstn _).secp_kept (by simp) (by simp)).1, (Works.releaseRstn _).mon_kept (by simp)⟩) h
        · exact h
    · exact h
  | _ => exact absurd rfl other

/-- Settles O60: `exec_watched`. -/
theorem everyStepKeepsTheMonitor : Obligations.EveryStepKeepsTheMonitor := by
  intro s t good run
  rw [State.monitorOk_iff] at good ⊢
  rw [step] at run
  split at run
  · cases run
    exact good
  · next c cs _ =>
    obtain ⟨u, runs, keeps⟩ := exec_watched c { s with pending := cs }
    rw [runs] at run
    cases run
    exact keeps good

end Sys2Proof.Machine

/-! PROOF. The RSTN that a release of the core finds (10 R189). -/

namespace Sys2Proof.Machine

/-- The permits that a core takes at its first tick (09 R177). -/
theorem State.begun_permit (straps : BitVec 3) (s : State) (p : Fin 3) : (s.begun straps).ports[p].permit =
    if s.mon.cause = .powerOn then straps.getLsbD p else s.ports[p].permit := by
  have ports : (s.begun straps).ports = if s.mon.cause = .powerOn then
      (s.mapPorts fun p q => { q with permit := straps.getLsbD p.val }).ports else s.ports := rfl
  rw [ports]
  split
  · rw [State.mapPorts_get]
    rfl
  · rfl

theorem State.resting_permit (straps : BitVec 3) (s : State) (p : Fin 3) : (s.resting straps).ports[p].permit =
    if s.mon.cause = .powerOn then straps.getLsbD p else s.ports[p].permit :=
  ((Works.resting straps s).permits (by simp) p).trans (s.begun_permit straps p)

/-- A core that finds RSTN latched or low at its first tick, as the assertion leaves it (10 R189). -/
def State.latchTaken (s : State) : State :=
  { s.assertRstn with
    rstnReleaseAt := if s.mon.latchReleased || !s.rstnLow then some (s.tick + 1) else none
    mon := { s.assertRstn.mon with latched := false, latchReleased := false } }

theorem State.releaseCore_latched {straps : BitVec 3} {s u : State} (hu : u = s.resting straps)
    (found : s.rstnLow = true ∨ s.mon.latched = true) : s.releaseCore straps = u.latchTaken := by
  obtain ⟨whole, -⟩ := State.rested_spec hu
  have mon : u.mon = { s.mon with phase := .run, noTick := 0, invalid := true } := (congrArg State.mon whole :)
  have low : u.rstnLow = s.rstnLow := (congrArg State.rstnLow whole :)
  have taken : (u.mon.latched || u.rstnLow) = true := by
    rw [mon, low, Bool.or_eq_true]
    exact found.symm
  rw [State.releaseCore_resting, ← hu]
  exact (State.takeLatch_eq rfl).trans (if_pos taken)

/-- The assertion keeps a permit, and the release samples it. -/
theorem State.dueRstn_released {s : State} {n : Nat} (latched : s.rstnReleaseAt = some n) (due : n ≤ s.tick) :
    s.dueRstn.rstnAsserted = s.rstnLow ∧ s.dueRstn.rstnReleaseAt = none
      ∧ ∀ p : Fin 3, s.dueRstn.ports[p].permit = s.straps.getLsbD p := by
  obtain ⟨u, hu⟩ : ∃ u, u = s.releaseRstn := ⟨_, rfl⟩
  have whole := hu.trans (State.releaseRstn_eq s)
  have low : u.rstnLow = s.rstnLow := (congrArg State.rstnLow whole :)
  have sampled (p : Fin 3) : u.ports[p].permit = s.straps.getLsbD p := by
    have ports : u.ports = (s.mapPorts fun p q => { q with permit := s.straps.getLsbD p.val }).ports :=
      (congrArg State.ports whole :)
    rw [ports, State.mapPorts_get]
    rfl
  have form : s.dueRstn = if u.rstnLow then u.assertRstn else u := by
    rw [hu]
    refine if_pos ?_
    rw [latched]
    exact decide_eq_true due
  rw [form]
  split
  · next yes =>
    obtain ⟨v, hv⟩ : ∃ v, v = u.assertRstn := ⟨_, rfl⟩
    obtain ⟨reset, ports, -⟩ := State.assertRstn_spec hv
    rw [← hv]
    refine ⟨?_, ?_, fun p => ?_⟩
    · rw [← low, yes, reset]
    · rw [reset]
      exact (congrArg State.rstnReleaseAt whole :)
    · obtain ⟨-, -, -, -, -, -, -, -, -, -, -, permit⟩ := ports p
      exact permit.trans (sampled p)
  · next no =>
    refine ⟨?_, ?_, sampled⟩
    · rw [← low, Bool.eq_false_iff.2 no, whole]
    · rw [whole]

theorem State.dueRstn_early {s : State} {n : Nat} (latched : s.rstnReleaseAt = some n) (early : s.tick < n) :
    s.dueRstn = s := by
  refine if_neg ?_
  rw [latched]
  exact fun due => Nat.not_le.2 early (of_decide_eq_true due)

/-- What the close of a tick makes of RSTN. -/
theorem State.closeTick_rstn (s : State) : ∃ t : State, s.closeTick.rstnAsserted = t.dueRstn.rstnAsserted
    ∧ s.closeTick.rstnReleaseAt = t.dueRstn.rstnReleaseAt
    ∧ (∀ p : Fin 3, s.closeTick.ports[p].permit = t.dueRstn.ports[p].permit)
    ∧ t.tick = s.tick ∧ t.straps = s.straps ∧ t.rstnLow = s.rstnLow ∧ t.rstnAsserted = s.rstnAsserted
    ∧ t.rstnReleaseAt = s.rstnReleaseAt ∧ ∀ p : Fin 3, t.ports[p].permit = s.ports[p].permit := by
  have before := Works.closeInputs s
  obtain ⟨t, ht⟩ : ∃ t, t = s.closeInputs := ⟨_, rfl⟩
  rw [← ht] at before
  have after := Works.closeOutputs t.dueRstn
  obtain ⟨-, tick, straps, low, -⟩ := before.fixed
  obtain ⟨asserted, releaseAt⟩ := before.rstn_kept (by simp)
  obtain ⟨closedAsserted, closedAt⟩ := after.rstn_kept (by simp)
  rw [State.closeTick_eq, ← ht]
  exact ⟨t, closedAsserted, closedAt, after.permits (by simp), tick, straps, low, asserted, releaseAt,
    before.permits (by simp)⟩

/-- Settles O51: the release by `State.rested_spec` and `State.assertRstn_spec`, the next tick by `State.closeTick_rstn`. -/
theorem releaseTakesRstn : Obligations.ReleaseTakesRstn := by
  refine ⟨fun straps s ready found => ?_, fun n s run latched => ?_⟩
  · obtain ⟨u, hu⟩ : ∃ u, u = s.resting straps := ⟨_, rfl⟩
    obtain ⟨whole, lines, -⟩ := State.rested_spec hu
    have permits := State.resting_permit straps s
    have runs := State.releaseCore_latched hu found
    rw [← hu] at permits
    obtain ⟨v, hv⟩ : ∃ v, v = u.assertRstn := ⟨_, rfl⟩
    obtain ⟨reset, ports, resetLines⟩ := State.assertRstn_spec hv
    refine ⟨u.latchTaken, congrArg Host.Outcome.next ((if_pos (s.releaseReady_iff.2 ready)).trans runs), ?_⟩
    have mon : u.mon = { s.mon with phase := .run, noTick := 0, invalid := true } := (congrArg State.mon whole :)
    have low : u.rstnLow = s.rstnLow := (congrArg State.rstnLow whole :)
    have tick : u.tick = s.tick + 1 := (congrArg State.tick whole :)
    have channels : u.channels = s.channels := (congrArg State.channels whole :)
    have disc := (congrArg State.disc whole :)
    have time : u.time = s.held.addTick := (congrArg State.time whole :)
    have interps : u.interps = (s.mapInterps Interp.release).interps := (congrArg State.interps whole :)
    have markers : u.markers = (s.mapMarkers Marker.release).markers := (congrArg State.markers whole :)
    have pairModes : u.pairModes = s.pairModes := (congrArg State.pairModes whole :)
    have vmon : v.mon = u.mon := (congrArg State.mon reset :)
    have vdisc : v.disc = u.disc := (congrArg State.disc reset :)
    have vchannels := (congrArg State.channels reset :)
    have vinterps : v.interps = u.interps := (congrArg State.interps reset :)
    have vmarkers : v.markers = u.markers := (congrArg State.markers reset :)
    have vpending := (congrArg State.markerPending reset :)
    have varrivals := (congrArg State.arrivals reset :)
    rw [State.latchTaken, ← hv]
    dsimp only
    refine ⟨by rw [vmon, mon], by rw [vmon, mon], (congrArg State.tick reset :).trans tick,
      (congrArg State.rstnLow reset :).trans low, (congrArg State.rstnAsserted reset :), rfl, rfl, ?_, ?_, ?_,
      (congrArg State.pairModes reset :).trans pairModes, by rw [vchannels, channels], (congrArg State.unmapped reset :),
      (congrArg State.markerSubs reset :), (congrArg (fun w : State => w.pool.fromEngine) reset :),
      (congrArg (fun w : State => w.pool.fromMarkers) reset :), fun i => ?_, fun m => ?_, fun l => ⟨?_, ?_⟩, fun p => ?_⟩
    · rw [mon, low, tick]
      refine if_congr ?_ rfl rfl
      rw [Bool.or_eq_true, Bool.not_eq_true']
    · rw [vdisc]
      exact disc.trans (by rw [disc])
    · rw [(congrArg State.time reset :), time]
      exact s.held.addTick_inc_epoch.1
    · rw [vinterps, interps, State.mapInterps_release_get]
      exact ⟨rfl, rfl, rfl⟩
    · rw [vmarkers, markers]
      exact State.mapMarkers_get m Marker.release s
    · rw [varrivals]
      exact replicate_get _ l
    · rw [resetLines, lines]
      rfl
    · obtain ⟨state, cause, queue, counters, lossTotal, -, cmds, tx, attention, -, -, permit⟩ := ports p
      refine ⟨state, cause, queue, counters, lossTotal, cmds, tx, attention, ?_, permit.trans (permits p)⟩
      rw [vpending]
      exact replicate_get _ p
  · obtain ⟨t, asserted, releaseAt, permit, tick, straps, low, asserted', releaseAt', permit'⟩ := s.closeTick_rstn
    obtain ⟨c, hc⟩ : ∃ c, c = s.closeTick := ⟨_, rfl⟩
    have runs : exec .coreTick s = .next c.advanceTick := congrArg Host.Outcome.next ((if_pos run).trans (by rw [hc]))
    rw [← hc] at asserted releaseAt permit
    refine ⟨c.advanceTick, runs, fun due => ?_, fun early => ?_⟩
    · obtain ⟨first, second, third⟩ := State.dueRstn_released (releaseAt'.trans latched) (tick ▸ due)
      exact ⟨asserted.trans (first.trans low), releaseAt.trans second, fun p => (permit p).trans ((third p).trans (by rw [straps]))⟩
    · have same := State.dueRstn_early (releaseAt'.trans latched) (tick ▸ early)
      rw [same] at asserted releaseAt permit
      exact ⟨asserted.trans asserted', releaseAt.trans (releaseAt'.trans latched), fun p => (permit p).trans (permit' p)⟩

end Sys2Proof.Machine

/-! PROOF. What the interpolators hold beside the readings of their captures, and how edges are captured and handed over
(03). -/

namespace Sys2Proof.Machine

/-! ## An interpolator but for the values it has captured -/

/-- A capture without its reading. -/
def Capture.bare (c : Capture) : Capture :=
  { c with reading := { sec := 0, ns := 0, sub := 0, epoch := 0, quality := .unset, invalid := false, suspect := false } }

/-- An interpolator without the readings of its captures, which a correction of the tick may change (01 R8). -/
def Interp.bare (x : Interp) : Interp :=
  { x with conv := x.conv.map fun v => { v with cap := v.cap.bare }, coarse := x.coarse.map Capture.bare }

theorem Capture.bare_reread (n : Nat) (r : Reading) (c : Capture) : (c.reread n r).bare = c.bare := by
  rw [Capture.reread]
  split <;> rfl

theorem Interp.bare_reread (n : Nat) (r : Reading) (x : Interp) : (x.reread n r).bare = x.bare := by
  have captures : Capture.bare ∘ Capture.reread n r = Capture.bare := funext (Capture.bare_reread n r)
  have conversions : ((fun v : Conversion => { v with cap := v.cap.bare }) ∘
      fun v : Conversion => { v with cap := v.cap.reread n r }) = fun v : Conversion => { v with cap := v.cap.bare } :=
    funext fun v => congrArg (fun c : Capture => ({ v with cap := c } : Conversion)) (Capture.bare_reread n r v.cap)
  rw [Interp.reread, Interp.bare]
  dsimp only
  rw [List.map_map, captures, Option.map_map, conversions]
  rfl

theorem Works.interp_bare {K : List Bank} {s t : State} (h : Works K s t) (no : Bank.interp ∉ K) (i : Input) :
    (t.interp i).bare = (s.interp i).bare :=
  h.keeps (fun u => (u.interp i).bare) fun b mem u v act => by
    cases b with
    | interp => exact absurd mem no
    | reading =>
      obtain ⟨r, hv, -⟩ := act.effect
      rw [hv, State.interp, State.rereadAs_interp]
      exact Interp.bare_reread _ _ _
    | _ => rw [State.interp, State.interp, act.interps_kept (by nofun) (by nofun)]

theorem Input.at_index (i : Input) : allInputs[(Input.index i).val]? = some i := by
  cases i with
  | line l => revert l; decide
  | marker m => revert m; decide
  | ref => rfl

theorem Input.index_injective {i k : Input} (h : Input.index k = Input.index i) : k = i := by
  have both := Input.at_index k
  rw [h, Input.at_index] at both
  exact (Option.some.inj both).symm

theorem State.updInterp_interp (i k : Input) (f : Interp → Interp) (s : State) :
    (s.updInterp i f).interp k = if k = i then f (s.interp i) else s.interp k := by
  rw [State.interp, State.updInterp_get]
  by_cases same : k = i
  · rw [if_pos same, if_pos (by rw [same])]
    rfl
  · rw [if_neg same, if_neg fun h => same (Input.index_injective h)]
    rfl

/-- Another interpolator stays as it is, and this one changes alike beside its readings. -/
theorem State.handEdge_interp (i k : Input) (c : Capture) (off : Nat) (coarse : Bool) (f : Interp → Interp) (s : State) :
    (((s.updInterp i f).handEdge i c off coarse).interp k).bare =
      if k = i then (f (s.interp i)).bare else (s.interp k).bare := by
  rw [(Works.handEdge i c off coarse _).interp_bare (by simp), State.updInterp_interp]
  split <;> rfl

/-! ## What is handed over -/

section
variable {i : Input} {s : State}

theorem State.endConversion_due {code : Fin 32} {v : Conversion} (run : s.running = true) (conv : (s.interp i).conv = some v)
    (due : v.cap.tick + 7 ≤ s.tick) : s.endConversion i code =
      (s.updInterp i fun x => { x with conv := none, lastEnd := some s.tick }).handEdge i v.cap
        (match v.table with | some w => fineOffset w code | none => Config.coarseOffset) v.table.isNone := by
  rw [State.endConversion, conv]
  refine (if_pos (by rw [run]; exact decide_eq_true due)).trans ?_
  dsimp only
  cases v.table <;> rfl

theorem State.handCoarse_due {c : Capture} {cs : List Capture} (run : s.running = true) (front : (s.interp i).coarse = c :: cs)
    (due : c.tick + 7 ≤ s.tick) (before : ∀ v ∈ (s.interp i).conv, c.tick < v.cap.tick) :
    s.handCoarse i = (s.updInterp i fun x => { x with coarse := cs }).handEdge i c 320 true := by
  have later : (s.interp i).convBefore c = false := by
    rw [Interp.convBefore, Option.any_eq_false]
    intro v hv
    exact (decide_eq_false (Nat.not_le.2 (before v hv))) 
  rw [State.handCoarse, front]
  refine if_pos ?_
  rw [run, later, Bool.true_and, Bool.not_false, Bool.and_true]
  exact decide_eq_true due

theorem State.handCoarse_idle (h : ∀ c ∈ (s.interp i).coarse.head?, s.tick < c.tick + 7) : s.handCoarse i = s := by
  unfold State.handCoarse
  dsimp only
  split
  · rfl
  · next c cs front =>
    refine if_neg fun due => ?_
    rw [Bool.and_eq_true, Bool.and_eq_true, decide_eq_true_eq] at due
    rw [front] at h
    exact absurd (h c rfl) (Nat.not_lt.2 due.1.2)

end

/-! ## Captures (03 R58) -/

section
variable {i : Input} {s t : State} {e : Nat} {rest : List Nat}

/-- An edge that an input presents is captured, once there is room for it. -/
theorem State.captureEdge_eq (ht : t = s.makeRoom i) (run : s.running = true) (twice : (s.interp i).captured < 2)
    (here : i = .ref ∧ e = 0 ∧ rest = (s.interp i).presented ∨ i ≠ .ref ∧ (s.interp i).presented = e :: rest)
    (same : (t.interp i).presented = (s.interp i).presented)
    (room : (t.interp i).coarse.length < 14) : s.captureEdge i =
      t.updInterp i fun y => ({ y with presented := rest } : Interp).capture t.tick t.reading e := by
  have can : s.canCapture i = true := by
    rw [State.canCapture, run, decide_eq_true twice]
    obtain ⟨ref, -⟩ | ⟨-, shown⟩ := here
    · rw [ref]
      rfl
    · rw [shown, List.isEmpty_cons, Bool.not_false, Bool.or_true]
      rfl
  rw [State.captureEdge, ← ht, can]
  refine (if_pos (decide_eq_true room)).trans ?_
  dsimp only
  rw [same]
  obtain ⟨rfl, rfl, hrest⟩ | ⟨other, shown⟩ := here
  · rw [hrest, ← same]
    rfl
  · rw [shown]
    cases i with
    | ref => exact absurd rfl other
    | _ => rfl

theorem State.captureEdge_full (ht : t = s.makeRoom i) (full : 14 ≤ (t.interp i).coarse.length) : s.captureEdge i = s := by
  rw [State.captureEdge, ← ht]
  refine if_neg fun room => ?_
  rw [Bool.and_eq_true, decide_eq_true_eq] at room
  exact absurd room.2 (Nat.not_lt.2 full)

theorem Interp.capture_idle {n : Nat} {r : Reading} {x : Interp} (idle : x.conv = none) (fresh : x.lastEnd ≠ some n) :
    ({ x with presented := rest } : Interp).capture n r e = { x with
      presented := rest, captured := x.captured + 1, sample := none
      conv := some { cap := { edge := e, tick := n, reading := r }, table := x.table } } := by
  rw [Interp.capture]
  refine if_neg ?_
  rw [not_or, Option.not_isSome_iff_eq_none]
  exact ⟨idle, fresh⟩

theorem Interp.capture_busy {n : Nat} {r : Reading} {x : Interp} (busy : x.conv ≠ none ∨ x.lastEnd = some n) :
    ({ x with presented := rest } : Interp).capture n r e = { x with
      presented := rest, captured := x.captured + 1, sample := none
      coarse := x.coarse ++ [{ edge := e, tick := n, reading := r }], busy := satInc x.busy } := by
  rw [Interp.capture]
  refine if_pos (busy.imp_left fun some => ?_)
  exact Option.isSome_iff_ne_none.2 some

end

/-! ## What an interpolator owes -/

/-- A conversion that has not come to its end tick. -/
def Interp.Converting (tick : Nat) (x : Interp) : Prop := ∀ v ∈ x.conv, tick < v.cap.tick + 7

/-- Nothing of an interpolator is due. -/
def Interp.Settled (tick : Nat) (x : Interp) : Prop :=
  x.Converting tick ∧ ∀ c ∈ x.coarse.head?, tick < c.tick + 7

/-- An interpolator that has handed over some of its edges. -/
def Interp.Sheds (x y : Interp) : Prop :=
  y.presented = x.presented ∧ y.captured = x.captured ∧ y.sample = x.sample ∧ y.coarse.length ≤ x.coarse.length

theorem Interp.Sheds.trans {x y z : Interp} (xy : x.Sheds y) (yz : y.Sheds z) : x.Sheds z := by
  obtain ⟨presented, captured, sample, coarse⟩ := xy
  obtain ⟨presented', captured', sample', coarse'⟩ := yz
  exact ⟨presented'.trans presented, captured'.trans captured, sample'.trans sample, coarse'.trans coarse⟩

theorem Interp.converting_bare {n : Nat} {x y : Interp} (h : y.bare = x.bare) (hx : x.Converting n) : y.Converting n := by
  intro v hv
  have conv : y.conv.map (fun v => v.cap.tick) = x.conv.map fun v => v.cap.tick := by
    have same := congrArg (fun z : Interp => z.conv.map fun v => v.cap.tick) h
    rw [Interp.bare, Interp.bare, Option.map_map, Option.map_map] at same
    exact same
  rw [Option.mem_def.1 hv] at conv
  obtain ⟨w, hw, same⟩ := Option.map_eq_some_iff.1 conv.symm
  exact (show w.cap.tick = v.cap.tick from same) ▸ hx w hw

theorem Interp.settled_bare {n : Nat} {x y : Interp} (h : y.bare = x.bare) (hx : x.Settled n) : y.Settled n := by
  obtain ⟨conv, head⟩ := hx
  refine ⟨Interp.converting_bare h conv, fun c hc => ?_⟩
  have coarse : y.coarse.head?.map Capture.tick = x.coarse.head?.map Capture.tick := by
    have same := congrArg (fun z : Interp => z.coarse.head?.map Capture.tick) h
    rw [Interp.bare, Interp.bare, List.head?_map, List.head?_map, Option.map_map, Option.map_map] at same
    exact same
  rw [Option.mem_def.1 hc] at coarse
  obtain ⟨w, hw, same⟩ := Option.map_eq_some_iff.1 coarse.symm
  rw [← same]
  exact head w hw

theorem Interp.sheds_bare {x y z : Interp} (h : y.bare = z.bare) (hz : x.Sheds z) : x.Sheds y := by
  have presented : y.presented = z.presented := (congrArg Interp.presented h :)
  have captured : y.captured = z.captured := (congrArg Interp.captured h :)
  have sample : y.sample = z.sample := (congrArg Interp.sample h :)
  have coarse : y.coarse.length = z.coarse.length := by
    have same := congrArg (fun z : Interp => z.coarse.length) h
    rw [Interp.bare, Interp.bare] at same
    exact ((List.length_map ..).symm.trans same).trans (List.length_map ..)
  exact Interp.Sheds.trans hz ⟨presented, captured, sample, coarse.le⟩

theorem Interp.Sheds.refl (x : Interp) : x.Sheds x := ⟨rfl, rfl, rfl, Nat.le_refl _⟩

/-- The hand-over of an edge: this interpolator sheds it, and every other keeps what it holds. -/
theorem State.handEdge_sheds {i k : Input} {c : Capture} {off : Nat} {coarse : Bool} {f : Interp → Interp} {s : State}
    (h : (s.interp i).Sheds (f (s.interp i))) :
    (s.interp k).Sheds (((s.updInterp i f).handEdge i c off coarse).interp k) := by
  have bare := s.handEdge_interp i k c off coarse f
  by_cases same : k = i
  · rw [if_pos same] at bare
    rw [same] at bare ⊢
    exact Interp.sheds_bare bare h
  · rw [if_neg same] at bare
    exact Interp.sheds_bare bare (.refl _)

theorem State.endConversion_sheds (i k : Input) (code : Fin 32) (s : State) :
    (s.interp k).Sheds ((s.endConversion i code).interp k) := by
  unfold State.endConversion
  split
  · exact .refl _
  · split
    · dsimp only
      split <;> exact State.handEdge_sheds ⟨rfl, rfl, rfl, Nat.le_refl _⟩
    · exact .refl _

theorem State.handCoarse_sheds (i k : Input) (s : State) : (s.interp k).Sheds ((s.handCoarse i).interp k) := by
  unfold State.handCoarse
  dsimp only
  split
  · exact .refl _
  · next c cs front =>
    split
    · refine State.handEdge_sheds ⟨rfl, rfl, rfl, ?_⟩
      rw [front]
      exact Nat.le_succ _
    · exact .refl _

theorem State.dueConversion_sheds (i k : Input) (s : State) : (s.interp k).Sheds ((s.dueConversion i).interp k) := by
  rw [State.dueConversion]
  split
  · exact State.endConversion_sheds i k _ { s with free := s.free + 1 }
  · exact .refl _

theorem State.dueEdges_sheds (i k : Input) (s : State) : (s.interp k).Sheds ((s.dueEdges i).interp k) :=
  times_keeps (fun u : State => (s.interp k).Sheds (u.interp k)) _ (fun u h => h.trans (u.handCoarse_sheds i k)) _ _
    (s.dueConversion_sheds i k)

/-- Settles O28: `State.captureEdge_eq`, `State.endConversion_due` and `State.handCoarse_due`. -/
theorem edgesAreCapturedAndHandedOver : Obligations.EdgesAreCapturedAndHandedOver := by
  intro i s run
  refine ⟨fun e rest twice here => ⟨fun room c hc => ?_, fun full => ⟨fun room => ?_, fun still => ?_⟩⟩, fun v k conv due => ?_,
    fun c cs front due before => ?_⟩
  · have form := State.captureEdge_eq (if_pos room).symm run twice here rfl room
    rw [hc]
    refine ⟨fun idle fresh => congrArg Host.Outcome.next (form.trans ?_), fun busy => congrArg Host.Outcome.next (form.trans ?_)⟩
    · refine State.updInterp_congr (Interp.capture_idle idle fresh)
    · refine State.updInterp_congr (Interp.capture_busy busy)
  · obtain ⟨presented, captured, -⟩ := s.dueEdges_sheds i i
    have running : (s.dueEdges i).running = true := (Works.dueEdges i s).running.trans run
    have first := State.captureEdge_eq (if_neg (Nat.not_lt.2 full)).symm run twice here presented room
    have second := State.captureEdge_eq (if_pos room).symm running (captured ▸ twice) (presented.symm ▸ here) rfl room
    exact congrArg Host.Outcome.next (first.trans second.symm)
  · exact congrArg Host.Outcome.next (State.captureEdge_full (if_neg (Nat.not_lt.2 full)).symm still)
  · exact congrArg Host.Outcome.next (State.endConversion_due run conv due)
  · exact congrArg Host.Outcome.next (State.handCoarse_due run front due before)

end Sys2Proof.Machine

/-! PROOF. What the interpolators still owe once a tick is closed (03). -/

namespace Sys2Proof.Machine

/-! ## Sweeps that leave nothing due -/

/-- A sweep leaves each of its items as the step for it does, where no step undoes that of another. -/
theorem sweep_establishes {α σ : Type} {f : α → σ → σ} {inv : σ → Prop} {P : α → σ → Prop}
    (kept : ∀ x u, inv u → inv (f x u)) (done : ∀ x u, inv u → P x (f x u))
    (stays : ∀ x y u, inv u → P y u → P y (f x u)) {xs : List α} {s : σ} (start : inv s) {y : α} (mem : y ∈ xs) :
    P y (sweep f xs s) := by
  induction xs generalizing s with
  | nil => exact absurd mem List.not_mem_nil
  | cons x xs ih =>
    by_cases later : y ∈ xs
    · exact ih (kept x s start) later
    · obtain rfl : y = x := (List.mem_cons.1 mem).resolve_right later
      exact (sweep_keeps (fun u => inv u ∧ P y u) f (fun x u h => ⟨kept x u h.1, stays x y u h.1 h.2⟩) xs _
        ⟨kept y s start, done y s start⟩).2

/-- The core runs, and the tick is this one. -/
def State.RunsAt (n : Nat) (s : State) : Prop := s.running = true ∧ s.tick = n

theorem Works.runsAt {K : List Bank} {s t : State} {n : Nat} (h : Works K s t) (hs : s.RunsAt n) : t.RunsAt n :=
  ⟨h.running.trans hs.1, h.tick.trans hs.2⟩

theorem mem_allInputs (i : Input) : i ∈ allInputs := List.mem_of_getElem? (Input.at_index i)

theorem times_fixed {σ : Type} {f : σ → σ} {s : σ} (h : f s = s) (n : Nat) : times f n s = s := by
  induction n with
  | zero => rfl
  | succ n ih => rw [times, h, ih]

/-! ## Conversions and coarse edges (03 R59, R60) -/

section
variable {i k : Input} {s : State} {n : Nat}

theorem State.dueConversion_idle (tick : s.tick = n) (h : (s.interp i).Converting n) : s.dueConversion i = s := by
  refine if_neg fun due => ?_
  obtain ⟨v, hv, passed⟩ := (Option.any_eq_true _ _).1 due
  exact absurd (tick ▸ h v hv) (Nat.not_lt.2 (of_decide_eq_true passed))

/-- Where nothing is due, an interpolator hands nothing over. -/
theorem State.dueEdges_idle (tick : s.tick = n) (h : (s.interp i).Settled n) : s.dueEdges i = s := by
  obtain ⟨conv, head⟩ := h
  rw [State.dueEdges, State.dueConversion_idle tick conv]
  exact times_fixed (State.handCoarse_idle (tick ▸ head)) _

theorem State.dueConversion_due {v : Conversion} (conv : (s.interp i).conv = some v) (due : v.cap.tick + 7 ≤ s.tick) :
    s.dueConversion i = ({ s with free := s.free + 1 } : State).endConversion i (Config.freeCode s.free) :=
  if_pos ((Option.any_eq_true _ _).2 ⟨v, conv, decide_eq_true due⟩)

theorem State.dueConversion_converting (run : s.RunsAt n) : ((s.dueConversion i).interp i).Converting n := by
  obtain ⟨running, tick⟩ := run
  by_cases still : (s.interp i).Converting n
  · rw [State.dueConversion_idle tick still]
    exact still
  · unfold Interp.Converting at still
    push Not at still
    obtain ⟨v, conv, due⟩ := still
    rw [← tick] at due
    rw [State.dueConversion_due conv due, State.endConversion_due (s := { s with free := s.free + 1 }) running conv due]
    exact Interp.converting_bare ((State.handEdge_interp ..).trans (if_pos rfl)) nofun

/-- As many hand-overs as there are coarse edges leave none that is due. -/
theorem State.times_handCoarse_settled {m : Nat} (run : s.RunsAt n) (conv : (s.interp i).Converting n)
    (few : (s.interp i).coarse.length ≤ m) : ((times (State.handCoarse i) m s).interp i).Settled n := by
  induction m generalizing s with
  | zero =>
    refine ⟨conv, fun c hc => ?_⟩
    change c ∈ (s.interp i).coarse.head? at hc
    rw [List.eq_nil_of_length_eq_zero (Nat.le_zero.1 few)] at hc
    exact absurd hc nofun
  | succ m ih =>
    by_cases head : ∀ c ∈ (s.interp i).coarse.head?, n < c.tick + 7
    · rw [times_fixed (State.handCoarse_idle (run.2.symm ▸ head))]
      exact ⟨conv, head⟩
    · push Not at head
      obtain ⟨c, hc, passed⟩ := head
      obtain ⟨cs, front⟩ := List.head?_eq_some_iff.1 hc
      have before : ∀ v ∈ (s.interp i).conv, c.tick < v.cap.tick := fun v hv => by
        have := conv v hv
        omega
      have form := State.handCoarse_due run.1 front (by rw [run.2]; exact passed) before
      have bare := State.handEdge_interp i i c 320 true (fun x => { x with coarse := cs }) s
      rw [if_pos rfl, ← form] at bare
      refine ih ((Works.handCoarse i s).runsAt run) (Interp.converting_bare bare conv) ?_
      obtain ⟨-, -, -, fewer⟩ := Interp.sheds_bare bare (.refl _)
      rw [front, List.length_cons] at few
      exact fewer.trans (Nat.le_of_succ_le_succ few)

theorem State.dueEdges_settled (run : s.RunsAt n) : ((s.dueEdges i).interp i).Settled n := by
  refine State.times_handCoarse_settled ((Works.dueConversion i s).runsAt run) (State.dueConversion_converting run) ?_
  obtain ⟨-, -, -, fewer⟩ := s.dueConversion_sheds i i
  exact fewer

/-- The hand-overs of one interpolator leave another as it is, beside its readings. -/
theorem State.dueEdges_other (h : k ≠ i) : ((s.dueEdges i).interp k).bare = (s.interp k).bare := by
  have converted : ((s.dueConversion i).interp k).bare = (s.interp k).bare := by
    rw [State.dueConversion]
    split
    · unfold State.endConversion
      split
      · rfl
      · split
        · dsimp only
          split <;> exact (State.handEdge_interp ..).trans (if_neg h)
        · rfl
    · rfl
  refine times_keeps (fun u : State => (u.interp k).bare = (s.interp k).bare) _ (fun u hu => ?_) _ _ converted
  unfold State.handCoarse
  dsimp only
  split
  · exact hu
  · split
    · exact ((State.handEdge_interp ..).trans (if_neg h)).trans hu
    · exact hu

theorem State.dueEdges_stays (run : s.RunsAt n) (h : (s.interp k).Settled n) : ((s.dueEdges i).interp k).Settled n := by
  by_cases same : k = i
  · rw [same]
    exact State.dueEdges_settled run
  · exact Interp.settled_bare (State.dueEdges_other same) h

/-! ## Captures (03 R58) -/

theorem State.makeRoom_sheds (i k : Input) (s : State) : (s.interp k).Sheds ((s.makeRoom i).interp k) := by
  rw [State.makeRoom]
  split
  · exact .refl _
  · exact s.dueEdges_sheds i k

theorem State.makeRoom_stays (run : s.RunsAt n) (h : (s.interp k).Settled n) : ((s.makeRoom i).interp k).Settled n := by
  rw [State.makeRoom]
  split
  · exact h
  · exact State.dueEdges_stays run h

/-- A capture, where one is taken. -/
theorem State.captureEdge_form (i : Input) (s : State) : s.captureEdge i = s ∨ ∃ t e rest, t = s.makeRoom i
    ∧ (i = .ref ∧ rest = (t.interp i).presented ∨ i ≠ .ref ∧ (t.interp i).presented = e :: rest)
    ∧ s.captureEdge i = t.updInterp i fun y => ({ y with presented := rest } : Interp).capture t.tick t.reading e := by
  obtain ⟨t, ht⟩ : ∃ t, t = s.makeRoom i := ⟨_, rfl⟩
  rw [State.captureEdge, ← ht]
  split
  · dsimp only
    split
    · exact .inr ⟨t, 0, _, rfl, .inl ⟨rfl, rfl⟩, rfl⟩
    · exact .inl rfl
    · next e rest other _ shown => exact .inr ⟨t, e, rest, rfl, .inr ⟨other, shown⟩, rfl⟩
  · exact .inl rfl

theorem Interp.capture_holds (x : Interp) (rest : List Nat) (e n : Nat) (r : Reading) :
    (({ x with presented := rest } : Interp).capture n r e).presented = rest
      ∧ (({ x with presented := rest } : Interp).capture n r e).captured = x.captured + 1
      ∧ (({ x with presented := rest } : Interp).capture n r e).coarse.length ≤ x.coarse.length + 1
      ∧ (x.Settled n → (({ x with presented := rest } : Interp).capture n r e).Settled n) := by
  by_cases busy : x.conv ≠ none ∨ x.lastEnd = some n
  · rw [Interp.capture_busy busy]
    refine ⟨rfl, rfl, List.length_append.le, fun ⟨conv, head⟩ => ⟨conv, fun c hc => ?_⟩⟩
    change c ∈ (x.coarse ++ [_]).head? at hc
    cases coarse : x.coarse with
    | nil =>
      rw [coarse] at hc
      cases hc
      exact Nat.lt_add_of_pos_right (by decide)
    | cons b bs =>
      rw [coarse] at hc head
      exact head c hc
  · rw [not_or, not_not] at busy
    rw [Interp.capture_idle busy.1 busy.2]
    refine ⟨rfl, rfl, Nat.le_succ _, fun ⟨_, head⟩ => ⟨fun v hv => ?_, head⟩⟩
    cases hv
    exact Nat.lt_add_of_pos_right (by decide)

theorem State.captureEdge_stays (run : s.RunsAt n) (h : (s.interp k).Settled n) : ((s.captureEdge i).interp k).Settled n := by
  obtain same | ⟨t, e, rest, ht, -, form⟩ := s.captureEdge_form i
  · rw [same]
    exact h
  · have settled : (t.interp k).Settled n := ht ▸ State.makeRoom_stays run h
    have tick : t.tick = n := ht ▸ ((Works.makeRoom i s).runsAt run).2
    rw [form, State.updInterp_interp]
    split
    · next own =>
      obtain ⟨-, -, -, stays⟩ := (t.interp i).capture_holds rest e t.tick t.reading
      rw [tick] at stays ⊢
      exact stays (own ▸ settled)
    · exact settled

/-- The edges presented to an interpolator that it can capture at one tick. -/
def Interp.Fits (x : Interp) : Prop := x.captured + x.presented.length ≤ 2 ∧ x.coarse.length + x.presented.length ≤ 14

theorem Interp.Sheds.fits {x y : Interp} (h : x.Sheds y) (fits : x.Fits) : y.Fits := by
  obtain ⟨presented, captured, -, coarse⟩ := h
  obtain ⟨two, room⟩ := fits
  rw [Interp.Fits, presented, captured]
  exact ⟨two, (Nat.add_le_add_right coarse _).trans room⟩

theorem State.captureEdge_fits (other : k ≠ .ref) (h : (s.interp k).Fits) : ((s.captureEdge i).interp k).Fits := by
  obtain same | ⟨t, e, rest, ht, shown, form⟩ := s.captureEdge_form i
  · rw [same]
    exact h
  · have fits : (t.interp k).Fits := ht ▸ (s.makeRoom_sheds i k).fits h
    rw [form, State.updInterp_interp]
    split
    · next own =>
      obtain ⟨presented, captured, coarse, -⟩ := (t.interp i).capture_holds rest e t.tick t.reading
      obtain ⟨ref, -⟩ | ⟨-, shown⟩ := shown
      · exact absurd (own.trans ref) other
      · rw [own, Interp.Fits, shown, List.length_cons] at fits
        rw [Interp.Fits, presented, captured]
        omega
    · exact fits

theorem State.captureEdge_empty (h : (s.interp k).presented = []) : ((s.captureEdge i).interp k).presented = [] := by
  obtain same | ⟨t, e, rest, ht, shown, form⟩ := s.captureEdge_form i
  · rw [same]
    exact h
  · have none : (t.interp k).presented = [] := by
      obtain ⟨presented, -⟩ := s.makeRoom_sheds i k
      rw [ht, presented]
      exact h
    rw [form, State.updInterp_interp]
    split
    · next own =>
      obtain ⟨presented, -⟩ := (t.interp i).capture_holds rest e t.tick t.reading
      rw [presented]
      obtain ⟨-, shown⟩ | ⟨-, shown⟩ := shown
      · rw [shown, ← own, none]
      · rw [← own, none] at shown
        cases shown
    · exact none

/-- As many captures as edges are presented leave none, where there is room for them. -/
theorem State.times_captureEdge_empty {m : Nat} (run : s.RunsAt n) (other : i ≠ .ref) (fits : (s.interp i).Fits)
    (few : (s.interp i).presented.length = m) : ((times (State.captureEdge i) m s).interp i).presented = [] := by
  induction m generalizing s with
  | zero => exact List.eq_nil_of_length_eq_zero few
  | succ m ih =>
    obtain ⟨e, rest, shown⟩ := List.exists_cons_of_length_eq_add_one few
    obtain ⟨two, room⟩ := id fits
    have form := State.captureEdge_eq (t := s) (i := i) (if_pos (show _ < 14 by omega)).symm run.1 (by omega)
      (.inr ⟨other, shown⟩) rfl (by omega)
    refine ih ((Works.captureEdge i s).runsAt run) (State.captureEdge_fits other fits) ?_
    rw [form, State.updInterp_interp, if_pos rfl]
    obtain ⟨presented, -⟩ := (s.interp i).capture_holds rest e s.tick s.reading
    rw [presented]
    rw [shown] at few
    exact Nat.succ.inj few

theorem State.dueCaptures_keeps (P : State → Prop) (h : ∀ u, P u → P (u.captureEdge i)) (hs : P s) : P (s.dueCaptures i) := by
  rw [State.dueCaptures]
  split
  · exact hs
  · exact times_keeps P _ h _ _ hs

theorem State.dueCaptures_empty (run : s.RunsAt n) (other : i ≠ .ref) (fits : (s.interp i).Fits) :
    ((s.dueCaptures i).interp i).presented = [] := by
  rw [State.dueCaptures]
  split
  · next none => exact List.isEmpty_iff.1 none
  · exact State.times_captureEdge_empty run other fits rfl

/-! ## Samples (03 R64) -/

/-- A sample that has not come to its end tick. -/
def Interp.Sampling (n : Nat) (x : Interp) : Prop := ∀ m ∈ x.sample, n < m

/-- An interpolator whose sample may have ended. -/
def Interp.Ends (x y : Interp) : Prop :=
  y.presented = x.presented ∧ y.conv = x.conv ∧ y.coarse = x.coarse ∧ (y.sample = x.sample ∨ y.sample = none)

theorem Interp.Ends.refl (x : Interp) : x.Ends x := ⟨rfl, rfl, rfl, .inl rfl⟩

theorem Interp.Ends.settled {x y : Interp} (h : x.Ends y) (hx : x.Settled n) : y.Settled n := by
  obtain ⟨-, conv, coarse, -⟩ := h
  rw [Interp.Settled, Interp.Converting, conv, coarse]
  exact hx

theorem Interp.Ends.sampling {x y : Interp} (h : x.Ends y) (hx : x.Sampling n) : y.Sampling n := by
  obtain ⟨-, -, -, same | none⟩ := h
  · rw [Interp.Sampling, same]
    exact hx
  · rw [Interp.Sampling, none]
    exact nofun

theorem State.dueSample_ends (i k : Input) (s : State) : (s.interp k).Ends ((s.dueSample i).interp k) := by
  unfold State.dueSample
  split
  · unfold State.endSample
    split
    · exact .refl _
    · split
      · rw [State.updInterp_interp]
        split
        · next own =>
          rw [own]
          split
          · exact ⟨rfl, rfl, rfl, .inr rfl⟩
          · split <;> exact ⟨rfl, rfl, rfl, .inr rfl⟩
        · exact .refl _
      · exact .refl _
  · exact .refl _

theorem State.endSample_none {m : Nat} {code : Fin 32} (run : s.running = true) (sample : (s.interp i).sample = some m)
    (due : m ≤ s.tick) : ((s.endSample i code).interp i).sample = none := by
  rw [State.endSample, sample]
  dsimp only
  rw [if_pos (by rw [run]; exact decide_eq_true due), State.updInterp_interp, if_pos rfl]
  split
  · rfl
  · split <;> rfl

theorem State.dueSample_sampling (run : s.RunsAt n) : ((s.dueSample i).interp i).Sampling n := by
  obtain ⟨running, tick⟩ := run
  by_cases due : (s.interp i).sample.any (fun t => t ≤ s.tick) = true
  · obtain ⟨m, sample, passed⟩ := (Option.any_eq_true _ _).1 due
    rw [State.dueSample, if_pos due, Interp.Sampling,
      State.endSample_none (s := { s with free := s.free + 1 }) running sample (of_decide_eq_true passed)]
    exact nofun
  · rw [State.dueSample, if_neg due]
    intro m sample
    refine Nat.lt_of_not_le fun passed => due ((Option.any_eq_true _ _).2 ⟨m, sample, decide_eq_true ?_⟩)
    rw [tick]
    exact passed

/-! ## The inputs of a tick that is closed -/

/-- Nothing of an interpolator is due, and no edge is presented that it had room for. -/
def Interp.Closed (n : Nat) (old x : Interp) (ref : Prop) : Prop :=
  x.Settled n ∧ x.Sampling n ∧ (¬ref → old.Fits → x.presented = [])

theorem Interp.Closed.bare {old y z : Interp} {ref : Prop} (hy : old.Closed n y ref) (h : z.bare = y.bare) :
    old.Closed n z ref := by
  obtain ⟨settled, sampling, empty⟩ := hy
  have sample : z.sample = y.sample := (congrArg Interp.sample h :)
  have presented : z.presented = y.presented := (congrArg Interp.presented h :)
  rw [Interp.Closed, Interp.Sampling, sample, presented]
  exact ⟨Interp.settled_bare h settled, sampling, empty⟩

/-- The edges and samples of a tick, taken. -/
def State.closeEdges (s : State) : State :=
  sweep State.dueSample allInputs (sweep State.dueCaptures allInputs (sweep State.dueEdges allInputs s.takeRollover))

theorem State.closeEdges_closed (run : s.RunsAt n) (i : Input) :
    (s.interp i).Closed n (s.closeEdges.interp i) (i = .ref) := by
  obtain ⟨a, ha⟩ : ∃ a, a = s.takeRollover := ⟨_, rfl⟩
  obtain ⟨b, hb⟩ : ∃ b, b = sweep State.dueEdges allInputs a := ⟨_, rfl⟩
  obtain ⟨c, hc⟩ : ∃ c, c = sweep State.dueCaptures allInputs b := ⟨_, rfl⟩
  have runA : a.RunsAt n := ha ▸ (Works.takeRollover s).runsAt run
  have runB : b.RunsAt n := hb ▸ (Works.sweep (fun i u => Works.dueEdges i u) allInputs a).runsAt runA
  have runC : c.RunsAt n := hc ▸ (Works.sweep (fun i u => Works.dueCaptures i u) allInputs b).runsAt runB
  have settledB : (b.interp i).Settled n := by
    rw [hb]
    exact sweep_establishes (P := fun (i : Input) (u : State) => (u.interp i).Settled n)
      (fun i u => (Works.dueEdges i u).runsAt) (fun i u run => State.dueEdges_settled run)
      (fun i k u run => State.dueEdges_stays run) runA (mem_allInputs i)
  have shedsB : (s.interp i).Sheds (b.interp i) := by
    rw [hb]
    refine sweep_keeps (fun u : State => (s.interp i).Sheds (u.interp i)) _ (fun k u h => h.trans (u.dueEdges_sheds k i)) _ _ ?_
    rw [ha]
    exact Interp.sheds_bare ((Works.takeRollover s).interp_bare (by simp) i) (.refl _)
  have settledC : (c.interp i).Settled n := by
    rw [hc]
    exact (sweep_keeps (fun u : State => u.RunsAt n ∧ (u.interp i).Settled n) _ (fun k u h =>
      State.dueCaptures_keeps (fun v : State => v.RunsAt n ∧ (v.interp i).Settled n)
        (fun v hv => ⟨(Works.captureEdge k v).runsAt hv.1, State.captureEdge_stays hv.1 hv.2⟩) h) _ _ ⟨runB, settledB⟩).2
  have emptyC (other : i ≠ .ref) (fits : (s.interp i).Fits) : (c.interp i).presented = [] := by
    rw [hc]
    refine sweep_establishes (inv := fun u : State => u.RunsAt n ∧ (u.interp i).Fits)
      (P := fun (k : Input) (u : State) => k = i → (u.interp i).presented = [])
      (fun k u h => State.dueCaptures_keeps (fun v : State => v.RunsAt n ∧ (v.interp i).Fits)
        (fun v hv => ⟨(Works.captureEdge k v).runsAt hv.1, State.captureEdge_fits other hv.2⟩) h)
      (fun k u h own => ?_) (fun k j u _ h own => ?_) ⟨runB, shedsB.fits fits⟩ (mem_allInputs i) rfl
    · subst own
      exact State.dueCaptures_empty h.1 other h.2
    · exact State.dueCaptures_keeps (fun v : State => (v.interp i).presented = []) (fun v hv => State.captureEdge_empty hv) (h own)
  rw [State.closeEdges, ← ha, ← hb, ← hc]
  obtain ⟨settled, empty⟩ := sweep_keeps (fun u : State => (u.interp i).Settled n ∧
      (i ≠ .ref → (s.interp i).Fits → (u.interp i).presented = [])) State.dueSample
    (fun k u ⟨settled, empty⟩ => by
      have ends := u.dueSample_ends k i
      exact ⟨ends.settled settled, fun other fits => ends.1.trans (empty other fits)⟩) allInputs c ⟨settledC, emptyC⟩
  refine ⟨settled, ?_, empty⟩
  exact sweep_establishes (P := fun (i : Input) (u : State) => (u.interp i).Sampling n)
    (fun k u => (Works.dueSample k u).runsAt) (fun k u run => State.dueSample_sampling run)
    (fun k j u _ => (u.dueSample_ends k j).sampling) runC (mem_allInputs i)

/-- What calibrations and a release of RSTN change of an interpolator, a closed one leaves closed. -/
theorem Interp.Closed.congr {old x y : Interp} {ref : Prop} (hx : old.Closed n x ref) (presented : y.presented = x.presented)
    (conv : y.conv = x.conv) (coarse : y.coarse = x.coarse) (sample : y.sample = x.sample) : old.Closed n y ref := by
  rw [Interp.Closed, Interp.Settled, Interp.Converting, Interp.Sampling, presented, conv, coarse, sample]
  exact hx

theorem State.mapInterps_interp (f : Interp → Interp) (i : Input) (s : State) : (s.mapInterps f).interp i = f (s.interp i) :=
  State.mapInterps_get _ f s

theorem State.calibrationExpiry_closed {old : Interp} {ref : Prop} (i : Input) (h : old.Closed n (s.interp i) ref) :
    old.Closed n (s.calibrationExpiry.interp i) ref := by
  rw [State.calibrationExpiry]
  split
  · dsimp only
    change old.Closed n ((s.mapInterps Interp.startCollection).interp i) ref
    rw [State.mapInterps_interp, Interp.startCollection]
    split
    · exact h
    · exact h.congr rfl rfl rfl rfl
  · exact h

theorem State.releaseRstn_closed {old : Interp} {ref : Prop} (i : Input) (h : old.Closed n (s.interp i) ref) :
    old.Closed n (s.releaseRstn.interp i) ref := by
  have interps : s.releaseRstn.interp i = { s.interp i with busy := 0, calibrations := 0 } := by
    rw [State.releaseRstn_eq]
    exact State.mapInterps_interp (fun x => { x with busy := 0, calibrations := 0 }) i s
  rw [interps]
  exact h.congr rfl rfl rfl rfl

theorem State.dueRstn_closed {old : Interp} {ref : Prop} (i : Input) (h : old.Closed n (s.interp i) ref) :
    old.Closed n (s.dueRstn.interp i) ref := by
  rw [State.dueRstn]
  split
  · have released := s.releaseRstn_closed i h
    dsimp only
    split
    · exact released.bare ((Works.assertRstn _).interp_bare (by simp) i)
    · exact released
  · exact h

/-- The inputs of a tick, from its edges to its calibration timer. -/
def State.closeCounter (s : State) : State := s.closeEdges.noPulse.missedWindow.takeRollover.calibrationExpiry

/-- The timers of a tick that come before RSTN. -/
def State.closeTimers (s : State) : State :=
  sweep State.dueLinkLoss allPorts (sweep State.quietExpiry allLines (sweep State.qualify allMarkers s))

theorem State.closeInputs_eq (s : State) : s.closeInputs = s.closeCounter.closeTimers := rfl

theorem Works.closeTimers (s : State) : Works [.marker, .pending, .port, .markerOut, .line] s s.closeTimers :=
  ((Works.sweep (fun i u => (Works.qualify i u).mono (by simp)) _ _).trans
    (Works.sweep (fun i u => (Works.quietExpiry i u).mono (by simp)) _ _)).trans
    (Works.sweep (fun i u => (Works.dueLinkLoss i u).mono (by simp)) _ _)

theorem State.closeTick_closed (run : s.RunsAt n) (i : Input) :
    (s.interp i).Closed n (s.closeTick.interp i) (i = .ref) := by
  obtain ⟨d, hd⟩ : ∃ d, d = s.closeEdges := ⟨_, rfl⟩
  obtain ⟨u, hu⟩ : ∃ u, u = s.closeCounter.closeTimers := ⟨_, rfl⟩
  have edges := s.closeEdges_closed run i
  rw [← hd] at edges
  have counter : (s.interp i).Closed n (s.closeCounter.interp i) (i = .ref) := by
    rw [State.closeCounter, ← hd]
    refine State.calibrationExpiry_closed i (edges.bare ?_)
    exact (((Works.noPulse d).trans (Works.missedWindow _)).trans (Works.takeRollover _)).interp_bare (by simp) i
  have inputs : (s.interp i).Closed n (u.interp i) (i = .ref) := by
    rw [hu]
    exact counter.bare ((Works.closeTimers _).interp_bare (by simp) i)
  rw [State.closeTick_eq, State.closeInputs_eq, ← hu]
  exact (State.dueRstn_closed i inputs).bare ((Works.closeOutputs _).interp_bare (by simp) i)

end

end Sys2Proof.Machine

/-! PROOF. What the timers, lines, marker inputs and the pool still owe once a tick is closed. -/

namespace Sys2Proof.Machine

section
variable {s : State} {n : Nat}

/-! ## The calibration timer (03 R67) -/

theorem DisciplineSettings.calTicks_pos (r : DisciplineSettings) : ∀ k ∈ r.calTicks, 0 < k := by
  intro k hk
  rw [DisciplineSettings.calTicks] at hk
  split at hk <;> cases hk <;> decide

theorem State.calibrationExpiry_timer (run : s.RunsAt n) : ∀ k ∈ s.calibrationExpiry.calExpiry, n < k := by
  obtain ⟨running, tick⟩ := run
  rw [State.calibrationExpiry, running, tick, Bool.true_and]
  split
  · intro k hk
    obtain ⟨j, hj, rfl⟩ := Option.map_eq_some_iff.1 hk
    exact Nat.lt_add_of_pos_right (s.disc.settings.calTicks_pos j hj)
  · next early =>
    intro k hk
    exact Nat.lt_of_not_le fun due => early ((Option.any_eq_true _ _).2 ⟨k, hk, decide_eq_true due⟩)

/-! ## Candidates (07 R136) -/

/-- No candidate stands whose tick has come with its stamp. -/
def Marker.Closed (n : Nat) (y : Marker) : Prop := ∀ c ∈ y.candidate, n < c.qualTick ∨ c.selected = true ∧ c.stamp = none

theorem Candidate.not_due {c : Candidate} (h : ¬c.due n = true) : n < c.qualTick ∨ c.selected = true ∧ c.stamp = none := by
  rw [Candidate.due, Bool.and_eq_true, decide_eq_true_eq, not_and_or, Nat.not_le] at h
  refine h.imp_right fun waits => ?_
  rw [Bool.or_eq_true, not_or, Bool.not_eq_true', Bool.not_eq_false, Option.not_isSome_iff_eq_none] at waits
  exact waits

theorem State.accept_candidate (m k : Fin 4) (d : Direction) (st : Stamp) (s : State) :
    (s.accept m d st).markers[k].candidate = s.markers[k].candidate := by
  have markers : (s.accept m d st).markers = (s.updMarker m fun y => { y with
      count := (s.markerRecord m d st).count, log := (s.markerRecord m d st :: y.log).take 4 }).markers := rfl
  rw [markers, State.updMarker_get]
  split
  · next own => rw [own]
  · rfl

/-- What is qualified, where it is due. -/
theorem State.qualify_candidate (m k : Fin 4) (run : s.RunsAt n) : (s.qualify m).markers[k].candidate =
    if k = m ∧ s.markers[m].candidate.any (Candidate.due n) then none else s.markers[k].candidate := by
  obtain ⟨running, tick⟩ := run
  unfold State.qualify
  split
  · next none =>
    rw [none, if_neg]
    exact fun h => Bool.false_ne_true h.2
  · next c candidate =>
    rw [running, tick, Bool.true_and, candidate]
    change _ = if k = m ∧ c.due n = true then none else _
    by_cases due : c.due n = true
    · rw [if_pos due]
      have removed : (s.updMarker m fun y => { y with candidate := none, qualified := edgeLevel c.dir }).markers[k].candidate =
          if k = m ∧ c.due n = true then none else s.markers[k].candidate := by
        rw [State.updMarker_get]
        by_cases own : k = m
        · rw [if_pos own, if_pos ⟨own, due⟩]
        · rw [if_neg own, if_neg fun h => own h.1]
      dsimp only
      split
      · rw [State.accept_candidate]
        exact removed
      · exact removed
    · rw [if_neg due, if_neg fun h => due h.2]

theorem State.qualify_closed (m : Fin 4) (run : s.RunsAt n) : (s.qualify m).markers[m].Closed n := by
  rw [Marker.Closed, State.qualify_candidate m m run]
  split
  · exact nofun
  · next early =>
    intro c hc
    exact Candidate.not_due fun due => early ⟨rfl, (Option.any_eq_true _ _).2 ⟨c, hc, due⟩⟩

theorem State.qualify_stays (m k : Fin 4) (run : s.RunsAt n) (h : s.markers[k].Closed n) : (s.qualify m).markers[k].Closed n := by
  rw [Marker.Closed, State.qualify_candidate m k run]
  split
  · exact nofun
  · exact h

/-! ## The lines (04 R76, R87) -/

/-- No quiet timer of a LIVE line has run out. -/
def Line.Closed (n : Nat) (x : Line) : Prop := x.state = .live → ∀ m ∈ x.quiet, n < m

theorem State.quietExpiry_closed (l : Fin 8) (run : s.RunsAt n) : (s.quietExpiry l).lines[l].Closed n := by
  obtain ⟨running, tick⟩ := run
  by_cases idle : s.lines[l].Closed n
  · rw [State.quietExpiry_idle]
    · exact idle
    · rw [tick]
      exact Decidable.not_or_of_imp idle
  · rw [Line.Closed] at idle
    push Not at idle
    obtain ⟨live, m, timer, due⟩ := idle
    rw [State.quietExpiry_due running live timer (tick ▸ due), State.setLineState_upd (by dsimp only; rw [live]; decide)]
    rw [(Works.notifyAll _ _).lines_kept (by simp), State.updLine_get, if_pos rfl]
    exact nofun

theorem State.setLineState_other {l k : Fin 8} (st : LineState) (h : k ≠ l) (s : State) :
    (s.setLineState l st).lines[k] = s.lines[k] := by
  by_cases same : s.lines[l].state = st
  · rw [State.setLineState_same same]
  · have form : s.setLineState l st = (s.updLine l fun x => { x with state := st }).notifyAll
        (.line l s.lines[l].state st (s.updLine l fun x => { x with state := st }).lineStates) := if_neg same
    rw [form, (Works.notifyAll _ _).lines_kept (by simp), State.updLine_get, if_neg h]

theorem State.quietExpiry_other {l k : Fin 8} (h : k ≠ l) : (s.quietExpiry l).lines[k] = s.lines[k] := by
  rw [State.quietExpiry]
  split
  · rw [State.setLineState_other _ h, State.updLine_get, if_neg h]
  · rfl

theorem State.quietExpiry_stays (l k : Fin 8) (run : s.RunsAt n) (h : s.lines[k].Closed n) :
    (s.quietExpiry l).lines[k].Closed n := by
  by_cases own : k = l
  · rw [own]
    exact State.quietExpiry_closed l run
  · rw [State.quietExpiry_other own]
    exact h

theorem State.closeTimers_closed (run : s.RunsAt n) :
    (∀ m : Fin 4, s.closeTimers.markers[m].Closed n) ∧ ∀ l : Fin 8, s.closeTimers.lines[l].Closed n := by
  obtain ⟨t, ht⟩ : ∃ t, t = sweep State.qualify allMarkers s := ⟨_, rfl⟩
  obtain ⟨u, hu⟩ : ∃ u, u = sweep State.quietExpiry allLines t := ⟨_, rfl⟩
  have runT : t.RunsAt n := ht ▸ (Works.sweep (fun m u => Works.qualify m u) allMarkers s).runsAt run
  have quiet := Works.sweep (fun m u => Works.quietExpiry m u) allLines t
  have loss := Works.sweep (fun m u => Works.dueLinkLoss m u) allPorts u
  rw [← hu] at quiet
  rw [State.closeTimers, ← ht, ← hu]
  constructor
  · intro m
    rw [loss.markers_kept (by simp), quiet.markers_kept (by simp), ht]
    exact sweep_establishes (P := fun (m : Fin 4) (u : State) => u.markers[m].Closed n) (fun m u => (Works.qualify m u).runsAt)
      (fun m u run => State.qualify_closed m run) (fun m k u run => State.qualify_stays m k run) run (mem_allMarkers m)
  · intro l
    rw [loss.lines_kept (by simp), hu]
    exact sweep_establishes (P := fun (l : Fin 8) (u : State) => u.lines[l].Closed n) (fun l u => (Works.quietExpiry l u).runsAt)
      (fun l u run => State.quietExpiry_closed l run) (fun l k u run => State.quietExpiry_stays l k run) runT (mem_allLines l)

end

end Sys2Proof.Machine

/-! PROOF. What is still owed once RSTN, the arrivals and the records of a tick are taken. -/

namespace Sys2Proof.Machine

section
variable {s : State} {n : Nat}

/-! ## RSTN (10 R189) -/

theorem Line.pinReset_closed (x : Line) : x.pinReset.Closed n := by
  intro live
  have state : x.pinReset.state = if x.settings.enable then .dark else .disabled := rfl
  rw [state] at live
  split at live <;> cases live

theorem State.dueRstn_cases (s : State) :
    s.dueRstn = s ∨ ∃ u, u = s.releaseRstn ∧ (s.dueRstn = u ∨ s.dueRstn = u.assertRstn) := by
  obtain ⟨u, hu⟩ : ∃ u, u = s.releaseRstn := ⟨_, rfl⟩
  have form : s.dueRstn = if s.rstnReleaseAt.any (fun t => t ≤ s.tick) then if u.rstnLow then u.assertRstn else u else s := by
    rw [hu]
    rfl
  rw [form]
  split
  · split
    · exact .inr ⟨u, hu, .inr rfl⟩
    · exact .inr ⟨u, hu, .inl rfl⟩
  · exact .inl rfl

theorem State.dueRstn_line (l : Fin 8) (h : s.lines[l].Closed n) : s.dueRstn.lines[l].Closed n := by
  obtain same | ⟨u, hu, same | same⟩ := s.dueRstn_cases
  · rw [same]
    exact h
  · have lines : u.lines = s.lines := hu ▸ (Works.releaseRstn s).lines_kept (by simp)
    rw [same, lines]
    exact h
  · obtain ⟨-, -, reset⟩ := State.assertRstn_spec (s := u) rfl
    rw [same, reset]
    exact Line.pinReset_closed _

theorem State.dueRstn_marker (m : Fin 4) (h : s.markers[m].Closed n) : s.dueRstn.markers[m].Closed n := by
  have released (u : State) (hu : u = s.releaseRstn) : u.markers[m].Closed n := by
    have markers : u.markers = (s.mapMarkers fun y => { y with glitches := 0 }).markers :=
      (congrArg State.markers (hu.trans s.releaseRstn_eq) :)
    rw [markers, State.mapMarkers_get]
    exact h
  obtain same | ⟨u, hu, same | same⟩ := s.dueRstn_cases
  · rw [same]
    exact h
  · rw [same]
    exact released u hu
  · rw [same, (Works.assertRstn u).markers_kept (by simp)]
    exact released u hu

/-- No latched release of RSTN is due. -/
theorem State.dueRstn_latch (run : s.RunsAt n) : ∀ m ∈ s.dueRstn.rstnReleaseAt, n < m := by
  obtain ⟨-, tick⟩ := run
  cases latched : s.rstnReleaseAt with
  | none =>
    have same : s.dueRstn = s := if_neg (by rw [latched]; exact Bool.false_ne_true)
    rw [same, latched]
    exact nofun
  | some m =>
    by_cases due : m ≤ s.tick
    · rw [(State.dueRstn_released latched due).2.1]
      exact nofun
    · rw [State.dueRstn_early latched (Nat.lt_of_not_le due), latched]
      intro k hk
      cases hk
      rw [← tick]
      exact Nat.lt_of_not_le due

/-! ## Arrivals (04 R87) -/

theorem State.arrivalTake_arrivals (l k : Fin 8) (run : s.running = true) :
    (s.arrivalTake l).arrivals[k] = if k = l then s.arrivals[l].tail else s.arrivals[k] := by
  rw [State.arrivalTake, if_pos run]
  split
  · next none =>
    split
    · next own => rw [own, none, List.tail_nil]
    · rfl
  · next a as front =>
    rw [(Works.engineTake a _).arrivals_kept (by simp), front]
    exact set_get _ l k as

theorem State.times_arrivalTake (l : Fin 8) (m : Nat) (run : s.running = true) :
    (times (State.arrivalTake l) m s).arrivals[l] = s.arrivals[l].drop m := by
  induction m generalizing s with
  | zero => rfl
  | succ m ih =>
    rw [times, ih ((Works.arrivalTake l s).running.trans run), State.arrivalTake_arrivals l l run, if_pos rfl,
      List.drop_tail]

theorem State.dueArrivals_empty (l : Fin 8) (run : s.running = true) : (s.dueArrivals l).arrivals[l] = [] := by
  rw [State.dueArrivals, State.times_arrivalTake l _ run, List.drop_length]

theorem State.dueArrivals_stays (l k : Fin 8) (run : s.running = true) (h : s.arrivals[k] = []) :
    (s.dueArrivals l).arrivals[k] = [] := by
  refine (times_keeps (fun u : State => u.running = true ∧ u.arrivals[k] = []) _ (fun u hu =>
    ⟨(Works.arrivalTake l u).running.trans hu.1, ?_⟩) _ s ⟨run, h⟩).2
  obtain ⟨run, none⟩ := hu
  rw [State.arrivalTake_arrivals l k run]
  split
  · next own => rw [← own, none, List.tail_nil]
  · exact none

/-- Arrivals change of a line only how many were unmapped. -/
theorem State.engineTake_line (a : Arrival) (k : Fin 8) (h : s.lines[k].Closed n) : (s.engineTake a).lines[k].Closed n := by
  have unmapped (key : Option Key) (cause : UnmappedCause) : (s.takeUnmapped a key cause).lines[k].Closed n := by
    have lines : (s.takeUnmapped a key cause).lines = (s.updLine a.line fun x => { x with unmapped := satInc x.unmapped }).lines := by
      rw [State.takeUnmapped]
      dsimp only
      split <;> rfl
    rw [lines, State.updLine_get]
    split
    · next own => exact own ▸ h
    · exact h
  unfold State.engineTake
  split
  · exact unmapped _ _
  · split
    · exact unmapped _ _
    · exact h

theorem State.arrivalTake_line (l k : Fin 8) (h : s.lines[k].Closed n) : (s.arrivalTake l).lines[k].Closed n := by
  rw [State.arrivalTake]
  split
  · split
    · exact h
    · exact State.engineTake_line _ k h
  · exact h

theorem State.dueArrivals_line (l k : Fin 8) (h : s.lines[k].Closed n) : (s.dueArrivals l).lines[k].Closed n :=
  times_keeps (fun u : State => u.lines[k].Closed n) _ (fun _ => State.arrivalTake_line l k) _ s h

/-! ## Records handed to the pool (08 R147) -/

theorem State.takeOffer_engine (run : s.running = true) :
    (s.takeOffer .engine).pool.fromEngine = s.pool.fromEngine.tail := by
  rw [State.takeOffer, if_pos run]
  dsimp only
  split
  · next none => rw [none, List.tail_nil]
  · next o os front => rw [(Works.offer o _).fromEngine_kept (by simp) (by simp), front, List.tail_cons]

theorem State.takeOffer_markers (run : s.running = true) :
    (s.takeOffer .markers).pool.fromMarkers = s.pool.fromMarkers.tail
      ∧ (s.takeOffer .markers).pool.fromEngine = s.pool.fromEngine := by
  rw [State.takeOffer, if_pos run]
  dsimp only
  split
  · next none => rw [none, List.tail_nil]; exact ⟨rfl, rfl⟩
  · next o os front =>
    rw [(Works.offer o _).fromEngine_kept (by simp) (by simp), (Works.offer o _).fromMarkers_kept (by simp), front, List.tail_cons]
    exact ⟨rfl, rfl⟩

theorem State.times_takeOffer_engine (m : Nat) (run : s.running = true) :
    (times (State.takeOffer .engine) m s).pool.fromEngine = s.pool.fromEngine.drop m := by
  induction m generalizing s with
  | zero => rfl
  | succ m ih =>
    rw [times, ih ((Works.takeOffer .engine s).running.trans run), State.takeOffer_engine run, List.drop_tail]

theorem State.times_takeOffer_markers (m : Nat) (run : s.running = true) :
    (times (State.takeOffer .markers) m s).pool.fromMarkers = s.pool.fromMarkers.drop m
      ∧ (times (State.takeOffer .markers) m s).pool.fromEngine = s.pool.fromEngine := by
  induction m generalizing s with
  | zero => exact ⟨rfl, rfl⟩
  | succ m ih =>
    obtain ⟨markers, engine⟩ := State.takeOffer_markers run
    obtain ⟨laterMarkers, laterEngine⟩ := ih ((Works.takeOffer .markers s).running.trans run)
    rw [times, laterMarkers, laterEngine, markers, engine, List.drop_tail]
    exact ⟨rfl, rfl⟩

theorem State.dueOffers_empty (run : s.running = true) : s.dueOffers.pool.fromEngine = [] ∧ s.dueOffers.pool.fromMarkers = [] := by
  obtain ⟨t, ht⟩ : ∃ t, t = times (State.takeOffer .engine) s.pool.fromEngine.length s := ⟨_, rfl⟩
  have running : t.running = true := ht ▸ (Works.times (Works.takeOffer .engine) _ s).running.trans run
  obtain ⟨markers, engine⟩ := State.times_takeOffer_markers (s := t) t.pool.fromMarkers.length running
  rw [State.dueOffers, ← ht, markers, engine, List.drop_length, ht, State.times_takeOffer_engine _ run, List.drop_length]
  exact ⟨rfl, rfl⟩

end

end Sys2Proof.Machine

/-! PROOF. The timers of the ports once a tick is closed (08 R162; 09 R168, R170). -/

namespace Sys2Proof.Machine

/-! ## Timers that have not run out -/

/-- The heartbeat timer has not run out. -/
def Port.Beats (n : Nat) (q : Port) : Prop := ∀ m ∈ q.hbTimer, n < m

/-- The hold timer of a port in HELD has not run out. -/
def Port.Holds (n : Nat) (q : Port) : Prop := q.state = .held → ∀ m ∈ q.holdTimer, n < m

/-- The silence timer of a port in STREAMING has not run out. -/
def Port.Hears (n : Nat) (q : Port) : Prop := q.state = .streaming → ∀ m ∈ q.silenceTimer, n < m

/-- No timer of a port is due. -/
structure Port.Punctual (n : Nat) (q : Port) : Prop where
  beats : q.Beats n
  holds : q.Holds n
  hears : q.Hears n

section
variable {s : State} {n : Nat} {p k : Fin 3}

theorem ticksPerMs_pos : 0 < Config.ticksPerMs := by decide

theorem Pacing.silenceTicks_pos (x : Pacing) : 0 < x.silenceTicks := by
  rw [Pacing.silenceTicks]
  exact Nat.mul_pos (Nat.pow_pos (Nat.succ_pos 3)) ticksPerMs_pos

theorem Pacing.heartbeatTicks_pos (x : Pacing) : ∀ m ∈ x.heartbeatTicks, 0 < m := by
  intro m hm
  rw [Pacing.heartbeatTicks] at hm
  split at hm
  · exact absurd hm nofun
  · rw [← Option.some.inj hm]
    exact Nat.mul_pos (Nat.pow_pos (Nat.succ_pos 1)) ticksPerMs_pos

theorem Port.Hears.settle {q : Port} (h : q.Hears n) : (q.settle n).Hears n := by
  intro streams m hm
  have timer : (q.settle n).silenceTimer =
      if q.silent then some (q.silenceTimer.getD (n + q.pacing.silenceTicks)) else none := rfl
  rw [timer] at hm
  split at hm
  · rw [← Option.some.inj hm]
    cases own : q.silenceTimer with
    | none =>
      rw [Option.getD_none]
      exact Nat.lt_add_of_pos_right q.pacing.silenceTicks_pos
    | some m =>
      rw [Option.getD_some]
      exact h streams m own
  · exact absurd hm nofun

theorem Port.Punctual.settle {q : Port} (h : q.Punctual n) : (q.settle n).Punctual n := ⟨h.beats, h.holds, h.hears.settle⟩

theorem Port.Punctual.congr {q r : Port} (h : q.Punctual n) (state : r.state = q.state) (hb : r.hbTimer = q.hbTimer)
    (hold : r.holdTimer = q.holdTimer) (silence : r.silenceTimer = q.silenceTimer) : r.Punctual n := by
  obtain ⟨beats, holds, hears⟩ := h
  constructor
  · rw [Port.Beats, hb]
    exact beats
  · rw [Port.Holds, state, hold]
    exact holds
  · rw [Port.Hears, state, silence]
    exact hears

/-- What holds of every port, where a change of one port keeps it. -/
theorem State.updPort_all {P : Port → Prop} {f : Port → Port} (own : P s.ports[p] → P ((f s.ports[p]).settle s.tick))
    (h : P s.ports[k]) : P (s.updPort p f).ports[k] := by
  rw [State.updPort_get]
  split
  · next same => exact own (same ▸ h)
  · exact h

/-! ## Expiries (08 R162; 09 R168, R170) -/

theorem State.heartbeatExpiry_stays (run : s.RunsAt n) (h : s.ports[k].Beats n) : (s.heartbeatExpiry p).ports[k].Beats n := by
  rw [State.heartbeatExpiry]
  split
  · refine State.updPort_all (P := Port.Beats n) (fun _ m hm => ?_) h
    obtain ⟨j, hj, rfl⟩ := Option.map_eq_some_iff.1 hm
    rw [run.2]
    exact Nat.lt_add_of_pos_right (Pacing.heartbeatTicks_pos _ j hj)
  · exact h

theorem State.heartbeatExpiry_beats (run : s.RunsAt n) : (s.heartbeatExpiry p).ports[p].Beats n := by
  by_cases beats : s.ports[p].Beats n
  · exact State.heartbeatExpiry_stays run beats
  · rw [Port.Beats] at beats
    push Not at beats
    obtain ⟨m, timer, due⟩ := beats
    have expired : (s.running && s.ports[p].hbTimer.any fun t => t ≤ s.tick) = true := by
      rw [run.1, run.2, Bool.true_and]
      exact (Option.any_eq_true _ _).2 ⟨m, timer, decide_eq_true due⟩
    rw [State.heartbeatExpiry, if_pos expired, State.updPort_get, if_pos rfl]
    intro m hm
    obtain ⟨j, hj, rfl⟩ := Option.map_eq_some_iff.1 hm
    rw [run.2]
    exact Nat.lt_add_of_pos_right (Pacing.heartbeatTicks_pos _ j hj)

theorem State.holdExpiry_stays (h : s.ports[k].Beats n ∧ s.ports[k].Holds n) :
    (s.holdExpiry p).ports[k].Beats n ∧ (s.holdExpiry p).ports[k].Holds n := by
  rw [State.holdExpiry]
  split
  · refine State.updPort_all (P := fun q => q.Beats n ∧ q.Holds n) (fun own => ?_) h
    rw [Port.notify_eq]
    exact ⟨own.1, nofun⟩
  · exact h

theorem State.holdExpiry_beats (h : s.ports[k].Beats n) : (s.holdExpiry p).ports[k].Beats n := by
  rw [State.holdExpiry]
  split
  · refine State.updPort_all (P := Port.Beats n) (fun own => ?_) h
    rw [Port.notify_eq]
    exact own
  · exact h

theorem State.holdExpiry_holds (run : s.RunsAt n) : (s.holdExpiry p).ports[p].Holds n := by
  by_cases holds : s.ports[p].Holds n
  · rw [State.holdExpiry]
    split
    · rw [State.updPort_get, if_pos rfl, Port.notify_eq]
      exact nofun
    · exact holds
  · rw [Port.Holds] at holds
    push Not at holds
    obtain ⟨held, m, timer, due⟩ := holds
    have expired : (s.running && s.ports[p].state == .held && s.ports[p].holdTimer.any fun t => t ≤ s.tick) = true := by
      rw [run.1, run.2, held, Bool.true_and]
      exact (Option.any_eq_true _ _).2 ⟨m, timer, decide_eq_true due⟩
    rw [State.holdExpiry, if_pos expired, State.updPort_get, if_pos rfl, Port.notify_eq]
    exact nofun

theorem Port.punctual_detached {q : Port} (detached : q.state = .detached) (timer : q.hbTimer = none) : q.Punctual n := by
  constructor
  · rw [Port.Beats, timer]
    exact nofun
  · rw [Port.Holds, detached]
    exact nofun
  · rw [Port.Hears, detached]
    exact nofun

theorem State.silenceExpiry_punctual (run : s.RunsAt n) (h : s.ports[p].Beats n ∧ s.ports[p].Holds n) :
    (s.silenceExpiry p).ports[p].Punctual n := by
  have detach : (s.detachPort p .silence).ports[p].Punctual n := by
    rw [State.detachPort, State.updPort_get, if_pos rfl]
    exact Port.punctual_detached rfl rfl
  by_cases hears : s.ports[p].Hears n
  · rw [State.silenceExpiry]
    split
    · exact detach
    · exact ⟨h.1, h.2, hears⟩
  · rw [Port.Hears] at hears
    push Not at hears
    obtain ⟨streams, m, timer, due⟩ := hears
    have expired : (s.running && s.ports[p].state == .streaming && s.ports[p].silenceTimer.any fun t => t ≤ s.tick) = true := by
      rw [run.1, run.2, streams, Bool.true_and]
      exact (Option.any_eq_true _ _).2 ⟨m, timer, decide_eq_true due⟩
    rw [State.silenceExpiry, if_pos expired]
    exact detach

theorem State.silenceExpiry_other (h : k ≠ p) : (s.silenceExpiry p).ports[k] = s.ports[k] := by
  rw [State.silenceExpiry]
  split
  · rw [State.detachPort, State.updPort_get, if_neg h]
    rfl
  · rfl

/-! ## Transmission (09 R172) -/

theorem State.takeItem_punctual {t : State} {i : Item} (run : s.RunsAt n) (h : s.ports[k].Punctual n)
    (taken : s.takeItem p = some (i, t)) : t.ports[k].Punctual n := by
  have keeps (u : State) (f : Port → Port) (ports : u.ports = s.ports) (tick : u.tick = s.tick)
      (same : ∀ q, (f q).state = q.state ∧ (f q).hbTimer = q.hbTimer ∧ (f q).holdTimer = q.holdTimer
        ∧ (f q).silenceTimer = q.silenceTimer) : (u.updPort p f).ports[k].Punctual n := by
    refine State.updPort_all (P := Port.Punctual n) (fun own => ?_) (by rw [ports]; exact h)
    obtain ⟨state, hb, hold, silence⟩ := same u.ports[p]
    rw [tick, run.2]
    exact (own.congr state hb hold silence).settle
  rw [State.takeItem] at taken
  split at taken
  · cases taken
    exact keeps s _ rfl rfl fun _ => ⟨rfl, rfl, rfl, rfl⟩
  · split at taken
    · split at taken
      · cases taken
        exact keeps s _ rfl rfl fun _ => ⟨rfl, rfl, rfl, rfl⟩
      · split at taken
        · cases taken
          exact keeps s _ rfl rfl fun _ => ⟨rfl, rfl, rfl, rfl⟩
        · split at taken
          · cases taken
          · obtain ⟨r, -, same⟩ := Option.map_eq_some_iff.1 taken
            cases same
            exact keeps _ _ rfl rfl fun _ => ⟨rfl, rfl, rfl, rfl⟩
    · cases taken

theorem State.takeItems_punctual (m : Nat) (run : s.RunsAt n) (h : s.ports[k].Punctual n) :
    (s.takeItems p m).2.ports[k].Punctual n := by
  induction m generalizing s with
  | zero => exact h
  | succ m ih =>
    rw [State.takeItems]
    split
    · exact h
    · next i t taken =>
      exact ih ((State.takeItem_works taken).1.runsAt run) (State.takeItem_punctual run h taken)

theorem State.startLinkFrame_punctual (run : s.RunsAt n) (h : s.ports[k].Punctual n) :
    (s.startLinkFrame p).ports[k].Punctual n := by
  have items := State.takeItems_punctual (p := p) 8 run h
  have tick : (s.takeItems p 8).2.tick = n := ((s.takeItems_works p 8).1.runsAt run).2
  rw [State.startLinkFrame]
  split
  · dsimp only
    split
    · exact h
    · refine State.updPort_all (P := Port.Punctual n) (fun own => ?_) items
      rw [tick]
      refine Port.Punctual.settle ?_
      exact own.congr rfl rfl rfl rfl
  · exact h

/-- The timers of the ports and their link frames, at the close of a tick. -/
def State.closePorts (s : State) : State :=
  let t := sweep State.holdExpiry allPorts (sweep State.heartbeatExpiry allPorts s)
  (sweep State.startLinkFrame allPorts (sweep State.silenceExpiry allPorts t)).secpFall

theorem Works.closePorts (s : State) : Works [.port, .secp] s s.closePorts :=
  ((((Works.sweep Works.heartbeatExpiry _ s).trans (Works.sweep Works.holdExpiry _ _)).trans
    (Works.sweep Works.silenceExpiry _ _)).trans (Works.sweep Works.startLinkFrame _ _) |>.mono (by simp)).trans
    ((Works.secpFall _).mono (by simp))

theorem State.closePorts_punctual (run : s.RunsAt n) (p : Fin 3) : s.closePorts.ports[p].Punctual n := by
  obtain ⟨t, ht⟩ : ∃ t, t = sweep State.heartbeatExpiry allPorts s := ⟨_, rfl⟩
  obtain ⟨u, hu⟩ : ∃ u, u = sweep State.holdExpiry allPorts t := ⟨_, rfl⟩
  obtain ⟨v, hv⟩ : ∃ v, v = sweep State.silenceExpiry allPorts u := ⟨_, rfl⟩
  have runT : t.RunsAt n := ht ▸ (Works.sweep Works.heartbeatExpiry allPorts s).runsAt run
  have runU : u.RunsAt n := hu ▸ (Works.sweep Works.holdExpiry allPorts t).runsAt runT
  have runV : v.RunsAt n := hv ▸ (Works.sweep Works.silenceExpiry allPorts u).runsAt runU
  have beats (p : Fin 3) : t.ports[p].Beats n := by
    rw [ht]
    exact sweep_establishes (P := fun (p : Fin 3) (u : State) => u.ports[p].Beats n) (fun p u => (Works.heartbeatExpiry p u).runsAt)
      (fun p u run => State.heartbeatExpiry_beats run) (fun p k u run => State.heartbeatExpiry_stays run) run (mem_allPorts p)
  have holds (p : Fin 3) : u.ports[p].Beats n ∧ u.ports[p].Holds n := by
    rw [hu]
    exact sweep_establishes (inv := fun u : State => u.RunsAt n ∧ ∀ p : Fin 3, u.ports[p].Beats n)
      (P := fun (p : Fin 3) (u : State) => u.ports[p].Beats n ∧ u.ports[p].Holds n)
      (fun p u h => ⟨(Works.holdExpiry p u).runsAt h.1, fun k => State.holdExpiry_beats (h.2 k)⟩)
      (fun p u h => ⟨State.holdExpiry_beats (h.2 p), State.holdExpiry_holds h.1⟩) (fun p k u _ => State.holdExpiry_stays)
      ⟨runT, beats⟩ (mem_allPorts p)
  have hears : v.ports[p].Punctual n := by
    rw [hv]
    refine sweep_establishes (inv := fun u : State => u.RunsAt n ∧ ∀ p : Fin 3, u.ports[p].Beats n ∧ u.ports[p].Holds n)
      (P := fun (p : Fin 3) (u : State) => u.ports[p].Punctual n) (fun p u h => ⟨(Works.silenceExpiry p u).runsAt h.1, fun k => ?_⟩)
      (fun p u h => State.silenceExpiry_punctual h.1 (h.2 p)) (fun p k u h hk => ?_) ⟨runU, holds⟩ (mem_allPorts p)
    · by_cases own : k = p
      · have punctual := State.silenceExpiry_punctual h.1 (h.2 p)
        rw [own]
        exact ⟨punctual.beats, punctual.holds⟩
      · rw [State.silenceExpiry_other own]
        exact h.2 k
    · by_cases own : k = p
      · rw [own]
        exact State.silenceExpiry_punctual h.1 (h.2 p)
      · rw [State.silenceExpiry_other own]
        exact hk
  obtain ⟨w, hw⟩ : ∃ w, w = sweep State.startLinkFrame allPorts v := ⟨_, rfl⟩
  have sent : w.ports[p].Punctual n := by
    rw [hw]
    exact (sweep_keeps (fun u : State => u.RunsAt n ∧ u.ports[p].Punctual n) _ (fun p u h =>
      ⟨(Works.startLinkFrame p u).runsAt h.1, State.startLinkFrame_punctual h.1 h.2⟩) allPorts v ⟨runV, hears⟩).2
  rw [State.closePorts, ← ht, ← hu, ← hv, ← hw, (Works.secpFall w).ports_kept (by simp) (by simp) (by simp)]
  exact sent

/-! ## SECP (01 R20) -/

theorem State.secpFall_late (run : s.RunsAt n) : s.secpFall.secp = true → s.secpFall.secpRise < n →
    s.secpFall.time.ns < s.secpFall.disc.settings.secpNs := by
  intro high later
  by_cases due : (s.running && s.secp && s.secpRise < s.tick && s.disc.settings.secpNs ≤ s.time.ns) = true
  · have low : s.secpFall.secp = false := by
      rw [State.secpFall, if_pos due]
      rfl
    exact absurd (high.symm.trans low) nofun
  · have same : s.secpFall = s := if_neg due
    rw [same] at high later ⊢
    refine Nat.lt_of_not_le fun reached => due ?_
    rw [run.1, high, run.2, decide_eq_true later, decide_eq_true reached]
    rfl

end

end Sys2Proof.Machine

/-! PROOF. The gap deadlines once a tick is closed (06 R124). -/

namespace Sys2Proof.Machine

section
variable {s t : State} {n : Nat}

theorem Works.reading_kept {K : List Bank} (h : Works K s t) (noClock : Bank.clock ∉ K) (noInvalid : Bank.invalid ∉ K) :
    t.reading = s.reading := by
  obtain ⟨time, -, disc⟩ := h.clock_kept noClock
  rw [State.reading, State.reading, time, disc, h.mon_kept noInvalid]

/-- The indexes of the channel table rise (05 R93). -/
def State.Sorted (s : State) : Prop := (s.channels.map Prod.fst).Pairwise (· < ·)

theorem State.Sorted.congr (h : s.Sorted) (channels : t.channels = s.channels) : t.Sorted := by
  rw [State.Sorted, channels]
  exact h

theorem State.Sorted.commitEntry (h : s.Sorted) (i : Nat) (r : Entry × List Record) : (s.commitEntry i r).Sorted :=
  tableSet_sorted i r.1 s.channels h

theorem State.Sorted.arrivalTake (h : s.Sorted) (l : Fin 8) : (s.arrivalTake l).Sorted := by
  unfold State.arrivalTake
  split
  · split
    · exact h
    · next a as _ =>
      obtain ⟨u, hu⟩ : ∃ u, u = { s with arrivals := s.arrivals.set l as } := ⟨_, rfl⟩
      have sorted : u.Sorted := h.congr (by rw [hu])
      rw [← hu]
      unfold State.engineTake
      split
      · exact sorted.congr ((Works.takeUnmapped ..).table_kept (by simp)).1
      · split
        · exact sorted.congr ((Works.takeUnmapped ..).table_kept (by simp)).1
        · exact sorted.commitEntry _ _
  · exact h

theorem State.Sorted.dueArrivals (h : s.Sorted) (l : Fin 8) : (s.dueArrivals l).Sorted :=
  times_keeps State.Sorted _ (fun _ h => h.arrivalTake l) _ s h

theorem State.Sorted.dueRstn (h : s.Sorted) : s.dueRstn.Sorted := by
  obtain same | ⟨u, hu, same | same⟩ := s.dueRstn_cases
  · rw [same]
    exact h
  · rw [same, hu]
    exact h.congr ((Works.releaseRstn s).table_kept (by simp)).1
  · have released : u.Sorted := hu ▸ h.congr ((Works.releaseRstn s).table_kept (by simp)).1
    obtain ⟨v, hv⟩ : ∃ v, v = u.assertRstn := ⟨_, rfl⟩
    obtain ⟨whole, -⟩ := State.assertRstn_spec hv
    have channels := (congrArg State.channels whole :)
    rw [same, ← hv, State.Sorted, channels, tableMap_fst]
    exact released

/-- No gap deadline of an entry is reached. -/
def Entry.Waits (r : Reading) (e : Entry) : Prop := ∀ d ∈ e.win.deadline, d.reached r = false

/-- An expiry takes the deadline of its entry, if it is reached, and keeps the other entries. -/
theorem State.gapExpiry_channels (i : Nat) (sorted : s.Sorted) (run : s.running = true) :
    (∀ q ∈ (s.gapExpiry i).channels, q.1 = i → q.2.Waits s.reading)
    ∧ ∀ q ∈ (s.gapExpiry i).channels, q.1 ≠ i → q ∈ s.channels := by
  unfold State.gapExpiry
  split
  · next none =>
    refine ⟨fun q mem own => ?_, fun q mem _ => mem⟩
    rw [(tableGet_iff i q.2 sorted).2 (own ▸ mem)] at none
    cases none
  · next e entry =>
    split
    · have table (q : Nat × Entry) := mem_tableSet i (e.expire i s.now).1 sorted q
      refine ⟨fun q mem own => ?_, fun q mem other => ?_⟩
      · obtain rfl | ⟨-, other⟩ := (table q).1 mem
        · exact fun d hd => absurd (show none = some d from hd) nofun
        · exact absurd own other
      · obtain rfl | ⟨old, -⟩ := (table q).1 mem
        · exact absurd rfl other
        · exact old
    · next early =>
      refine ⟨fun q mem own d hd => ?_, fun q mem _ => mem⟩
      have same : some q.2 = some e := ((tableGet_iff i q.2 sorted).2 (own ▸ mem)).symm.trans entry
      rw [run, Bool.true_and, Bool.not_eq_true, Option.any_eq_false] at early
      exact early d (Option.some.inj same ▸ hd)

/-- An entry at an index that was there before. -/
theorem State.gapExpiry_old (i : Nat) (sorted : s.Sorted) (q : Nat × Entry) (mem : q ∈ (s.gapExpiry i).channels) :
    ∃ r ∈ s.channels, r.1 = q.1 := by
  unfold State.gapExpiry at mem
  split at mem
  · exact ⟨q, mem, rfl⟩
  · next e entry =>
    split at mem
    · obtain rfl | ⟨old, -⟩ := (mem_tableSet i (e.expire i s.now).1 sorted q).1 mem
      · exact ⟨(i, e), (tableGet_iff i e sorted).1 entry, rfl⟩
      · exact ⟨q, old, rfl⟩
    · exact ⟨q, mem, rfl⟩

theorem State.Sorted.gapExpiry (h : s.Sorted) (i : Nat) : (s.gapExpiry i).Sorted := by
  unfold State.gapExpiry
  split
  · exact h
  · split
    · exact h.commitEntry _ _
    · exact h

/-- A core that runs, with its table in order, at a reading. -/
structure State.GapsAt (r : Reading) (s : State) : Prop where
  run : s.running = true
  sorted : s.Sorted
  reading : s.reading = r

theorem State.GapsAt.gapExpiry {r : Reading} (h : s.GapsAt r) (i : Nat) : (s.gapExpiry i).GapsAt r :=
  ⟨(Works.gapExpiry i s).running.trans h.run, h.sorted.gapExpiry i,
    ((Works.gapExpiry i s).reading_kept (by simp) (by simp)).trans h.reading⟩

/-- No gap deadline that is reached stands after those that are due are taken. -/
theorem State.dueGaps_waits {r : Reading} (h : s.GapsAt r) : ∀ q ∈ s.dueGaps.channels, q.2.Waits r := by
  intro q mem
  have known : ∃ x ∈ s.channels, x.1 = q.1 :=
    (sweep_keeps (fun u : State => u.GapsAt r ∧ ∀ q ∈ u.channels, ∃ x ∈ s.channels, x.1 = q.1) State.gapExpiry
      (fun i u ⟨gaps, old⟩ => ⟨gaps.gapExpiry i, fun q mem => by
        obtain ⟨x, hx, same⟩ := u.gapExpiry_old i gaps.sorted q mem
        obtain ⟨y, hy, same'⟩ := old x hx
        exact ⟨y, hy, same'.trans same⟩⟩) (s.channels.map Prod.fst) s ⟨h, fun q mem => ⟨q, mem, rfl⟩⟩).2 q mem
  obtain ⟨x, hx, same⟩ := known
  refine sweep_establishes (f := State.gapExpiry) (inv := State.GapsAt r)
    (P := fun (i : Nat) (u : State) => ∀ q ∈ u.channels, q.1 = i → q.2.Waits r)
    (fun i u gaps => State.GapsAt.gapExpiry gaps i) (fun i u gaps => ?_) (fun i j u gaps waits q mem own => ?_) h
    (List.mem_map_of_mem hx) q mem same.symm
  · rw [← gaps.reading]
    exact (u.gapExpiry_channels i gaps.sorted gaps.run).1
  · obtain ⟨first, others⟩ := u.gapExpiry_channels i gaps.sorted gaps.run
    by_cases here : q.1 = i
    · rw [← gaps.reading]
      exact first q mem here
    · exact waits q (others q mem here) own

/-! ## The outputs of a tick -/

theorem State.closeOutputs_eq (s : State) :
    s.closeOutputs = ((sweep State.dueArrivals allLines s).dueGaps.dueOffers).closePorts := rfl

/-- What the outputs leave where RSTN has been taken. -/
theorem State.closeOutputs_spec (run : s.RunsAt n) :
    (∀ l : Fin 8, s.closeOutputs.arrivals[l] = [] ∧ (s.lines[l].Closed n → s.closeOutputs.lines[l].Closed n))
    ∧ s.closeOutputs.pool.fromEngine = [] ∧ s.closeOutputs.pool.fromMarkers = []
    ∧ (∀ p : Fin 3, s.closeOutputs.ports[p].Punctual n)
    ∧ (s.Sorted → ∀ q ∈ s.closeOutputs.channels, q.2.Waits s.closeOutputs.reading)
    ∧ (s.closeOutputs.secp = true → s.closeOutputs.secpRise < n →
        s.closeOutputs.time.ns < s.closeOutputs.disc.settings.secpNs) := by
  obtain ⟨a, ha⟩ : ∃ a, a = sweep State.dueArrivals allLines s := ⟨_, rfl⟩
  obtain ⟨b, hb⟩ : ∃ b, b = a.dueGaps.dueOffers := ⟨_, rfl⟩
  obtain ⟨c, hc⟩ : ∃ c, c = b.closePorts := ⟨_, rfl⟩
  have arrivals := Works.sweep Works.dueArrivals allLines s
  have offers : Works [.table, .engineOut, .markerOut, .port] a b := by
    rw [hb]
    exact ((Works.dueGaps a).mono (by simp)).trans ((Works.dueOffers _).mono (by simp))
  have ports := Works.closePorts b
  rw [← ha] at arrivals
  rw [← hc] at ports
  have runA := arrivals.runsAt run
  have runB := offers.runsAt runA
  rw [State.closeOutputs_eq, ← ha, ← hb, ← hc]
  refine ⟨fun l => ⟨?_, fun closed => ?_⟩, ?_, ?_, fun p => ?_, fun sorted q mem => ?_, ?_⟩
  · rw [ports.arrivals_kept (by simp), offers.arrivals_kept (by simp), ha]
    exact sweep_establishes (P := fun (l : Fin 8) (u : State) => u.arrivals[l] = []) (fun l u => (Works.dueArrivals l u).runsAt)
      (fun l u run => State.dueArrivals_empty l run.1) (fun l k u run => State.dueArrivals_stays l k run.1) run (mem_allLines l)
  · rw [ports.lines_kept (by simp), offers.lines_kept (by simp), ha]
    exact sweep_keeps (fun u : State => u.lines[l].Closed n) _ (fun k u => State.dueArrivals_line k l) allLines s closed
  · rw [ports.fromEngine_kept (by simp) (by simp), hb]
    exact (State.dueOffers_empty ((Works.dueGaps a).runsAt runA).1).1
  · rw [ports.fromMarkers_kept (by simp), hb]
    exact (State.dueOffers_empty ((Works.dueGaps a).runsAt runA).1).2
  · rw [hc]
    exact State.closePorts_punctual runB p
  · have table : c.channels = a.dueGaps.channels := by
      rw [(ports.table_kept (by simp)).1, hb, ((Works.dueOffers a.dueGaps).table_kept (by simp)).1]
    have order : a.Sorted := ha ▸ sweep_keeps State.Sorted _ (fun l u h => h.dueArrivals l) allLines s sorted
    have reading : c.reading = a.reading :=
      (ports.reading_kept (by simp) (by simp)).trans (offers.reading_kept (by simp) (by simp))
    rw [reading]
    exact State.dueGaps_waits ⟨runA.1, order, rfl⟩ q (table ▸ mem)
  · have tail : ∃ v : State, v.RunsAt n ∧ c = v.secpFall := by
      refine ⟨_, ?_, hc⟩
      exact ((((Works.sweep Works.heartbeatExpiry _ b).trans (Works.sweep Works.holdExpiry _ _)).trans
        (Works.sweep Works.silenceExpiry _ _)).trans (Works.sweep Works.startLinkFrame _ _)).runsAt runB
    obtain ⟨v, runV, same⟩ := tail
    rw [same]
    exact State.secpFall_late runV

end

end Sys2Proof.Machine

/-! PROOF. The deadlines of the controller once a tick is closed (02 R36, R39). -/

namespace Sys2Proof.Machine

section
variable {s t : State} {n : Nat} {i : Input}

/-! ## Edges that are not the reference's -/

/-- What the hand-over of an edge that is not a pulse may write: nothing of the counter or its controller. -/
abbrev Works.sideBanks : List Bank := [.line, .arrival, .marker, .pending, .port, .markerOut]

theorem Works.handEdge_side (other : i ≠ .ref) (c : Capture) (off : Nat) (coarse : Bool) (s : State) :
    Works sideBanks s (s.handEdge i c off coarse) := by
  cases i with
  | line l => exact (lineEdge ..).mono (by simp)
  | marker m => exact (markerEdge ..).mono (by simp)
  | ref => exact absurd rfl other

theorem Works.dueEdges_side (other : i ≠ .ref) (s : State) : Works (.count :: .interp :: sideBanks) s (s.dueEdges i) :=
  dueEdges_of (handEdge_side other) s

theorem Works.captureEdge_side (other : i ≠ .ref) (s : State) : Works (.count :: .interp :: sideBanks) s (s.captureEdge i) :=
  captureEdge_of (by simp) (dueEdges_side other) s

/-- The counter, the controller and the monitor are those of another state. -/
def State.SameClock (s t : State) : Prop := t.time = s.time ∧ t.rolled = s.rolled ∧ t.disc = s.disc ∧ t.mon = s.mon

theorem State.SameClock.refl (s : State) : s.SameClock s := ⟨rfl, rfl, rfl, rfl⟩

theorem Works.sameClock {u : State} {K : List Bank} (h : Works K t u) (noClock : Bank.clock ∉ K) (noInvalid : Bank.invalid ∉ K)
    (same : s.SameClock t) : s.SameClock u := by
  obtain ⟨time, rolled, disc⟩ := h.clock_kept noClock
  rw [State.SameClock, time, rolled, disc, h.mon_kept noInvalid]
  exact same

theorem State.SameClock.reading (h : s.SameClock t) : t.reading = s.reading := by
  obtain ⟨time, -, disc, mon⟩ := h
  rw [State.reading, State.reading, time, disc, mon]

/-! ## A tick at which no pulse is in flight -/

/-- The reference input has handed over all that it captured. -/
def Interp.Empty (x : Interp) : Prop := x.conv = none ∧ x.coarse = []

theorem Interp.empty_bare {x y : Interp} (h : y.bare = x.bare) (hx : x.Empty) : y.Empty := by
  obtain ⟨conv, coarse⟩ := hx
  have conv' := congrArg Interp.conv h
  have coarse' := congrArg Interp.coarse h
  rw [Interp.bare, Interp.bare] at conv' coarse'
  dsimp only at conv' coarse'
  rw [conv, Option.map_none, Option.map_eq_none_iff] at conv'
  rw [coarse, List.map_nil, List.map_eq_nil_iff] at coarse'
  exact ⟨conv', coarse'⟩

theorem Interp.Empty.settled {x : Interp} (h : x.Empty) : x.Settled n := by
  rw [Interp.Settled, Interp.Converting, h.1, h.2]
  exact ⟨nofun, nofun⟩

/-- The hand-overs of a tick at which no pulse is in flight. -/
theorem State.dueEdges_sameClock (tick : t.tick = n) (same : s.SameClock t) (empty : (t.interp .ref).Empty) :
    s.SameClock (t.dueEdges i) ∧ ((t.dueEdges i).interp .ref).Empty := by
  by_cases other : i = .ref
  · rw [other, State.dueEdges_idle tick empty.settled]
    exact ⟨same, empty⟩
  · exact ⟨(Works.dueEdges_side other t).sameClock (by simp) (by simp) same,
      Interp.empty_bare (State.dueEdges_other fun h => other h.symm) empty⟩

/-- An interpolator that has no more coarse edges than it has captured at this tick. -/
def Interp.Few (x : Interp) : Prop := x.coarse.length ≤ x.captured

theorem Interp.Sheds.few {x y : Interp} (h : x.Sheds y) (few : x.Few) : y.Few := by
  obtain ⟨-, captured, -, coarse⟩ := h
  rw [Interp.Few, captured]
  exact coarse.trans few

/-- A capture at the reference input that finds room among the coarse edges hands no pulse over. -/
theorem State.captureEdge_ref (few : (t.interp .ref).Few) : t.captureEdge .ref = t
    ∨ t.captureEdge .ref = t.updInterp .ref fun y => ({ y with presented := y.presented } : Interp).capture t.tick t.reading 0 := by
  by_cases can : t.canCapture .ref = true
  · have twice : (t.interp .ref).captured < 2 := by
      rw [State.canCapture, Bool.and_eq_true, Bool.and_eq_true, decide_eq_true_eq] at can
      exact can.1.2
    have room : (t.interp .ref).coarse.length < 14 := (few.trans_lt twice).trans (by decide)
    have run : t.running = true := by
      rw [State.canCapture, Bool.and_eq_true, Bool.and_eq_true] at can
      exact can.1.1
    exact .inr ((State.captureEdge_eq (t := t) (if_pos room).symm run twice (.inl ⟨rfl, rfl, rfl⟩) rfl room).trans
      (State.updInterp_congr rfl))
  · refine .inl (if_neg fun h => can ?_)
    rw [Bool.and_eq_true] at h
    exact h.1

theorem State.captureEdge_few (i : Input) (few : (t.interp .ref).Few) : ((t.captureEdge i).interp .ref).Few := by
  by_cases own : i = .ref
  · subst own
    obtain form | form := State.captureEdge_ref few
    · rw [form]
      exact few
    · rw [form, State.updInterp_interp, if_pos rfl]
      obtain ⟨-, captured, coarse, -⟩ := (t.interp .ref).capture_holds (t.interp .ref).presented 0 t.tick t.reading
      rw [Interp.Few, captured]
      exact coarse.trans (Nat.succ_le_succ few)
  · obtain same | ⟨u, e, rest, hu, -, form⟩ := t.captureEdge_form i
    · rw [same]
      exact few
    · rw [form, State.updInterp_interp, if_neg fun h => own h.symm, hu]
      exact (t.makeRoom_sheds i .ref).few few

theorem State.captureEdge_sameClock (i : Input) (same : s.SameClock t) (few : (t.interp .ref).Few) :
    s.SameClock (t.captureEdge i) := by
  by_cases own : i = .ref
  · subst own
    obtain form | form := State.captureEdge_ref few <;> rw [form] <;> exact same
  · exact (Works.captureEdge_side own t).sameClock (by simp) (by simp) same

/-- The edges and samples of a tick at which no rollover waits and no pulse is in flight. -/
theorem State.closeEdges_sameClock (run : s.RunsAt n) (idle : s.rolled ≠ .waiting) (empty : (s.interp .ref).Empty) :
    s.SameClock s.closeEdges := by
  have first : s.takeRollover = s := by
    refine if_neg fun h => idle ?_
    rw [Bool.and_eq_true, beq_iff_eq] at h
    exact h.2
  obtain ⟨b, hb⟩ : ∃ b, b = sweep State.dueEdges allInputs s := ⟨_, rfl⟩
  obtain ⟨c, hc⟩ : ∃ c, c = sweep State.dueCaptures allInputs b := ⟨_, rfl⟩
  obtain ⟨-, sameB, emptyB⟩ : b.RunsAt n ∧ s.SameClock b ∧ (b.interp .ref).Empty := by
    rw [hb]
    exact sweep_keeps (fun u : State => u.RunsAt n ∧ s.SameClock u ∧ (u.interp .ref).Empty) State.dueEdges
      (fun i u ⟨run, same, empty⟩ => ⟨(Works.dueEdges i u).runsAt run, State.dueEdges_sameClock run.2 same empty⟩)
      allInputs s ⟨run, .refl s, empty⟩
  have fewB : (b.interp .ref).Few := by
    rw [Interp.Few, emptyB.2]
    exact Nat.zero_le _
  obtain ⟨sameC, -⟩ : s.SameClock c ∧ (c.interp .ref).Few := by
    rw [hc]
    exact sweep_keeps (fun u : State => s.SameClock u ∧ (u.interp .ref).Few) State.dueCaptures
      (fun i u h => State.dueCaptures_keeps (fun v : State => s.SameClock v ∧ (v.interp .ref).Few)
        (fun v hv => ⟨State.captureEdge_sameClock i hv.1 hv.2, State.captureEdge_few i hv.2⟩) h) allInputs b ⟨sameB, fewB⟩
  rw [State.closeEdges, first, ← hb, ← hc]
  exact (Works.sweep Works.dueSample allInputs c).sameClock (by simp) (by simp) sameC

/-! ## The silence deadline and the expected second -/

/-- Each of the two deadlines stays or goes. -/
def Discipline.Drops (d e : Discipline) : Prop :=
  (e.silence = d.silence ∨ e.silence = none) ∧ (e.expected = d.expected ∨ e.expected = none)

theorem State.raiseQuality_disc (q : Quality) (b : Bool) (s : State) :
    (s.raiseQuality q b).disc = { s.disc with qualityAt := (s.raiseQuality q b).disc.qualityAt } := by
  rw [State.raiseQuality]
  split
  · rfl
  · split <;> rfl

theorem Discipline.advanceAge_drops (d : Discipline) : d.Drops d.advanceAge := by
  rw [Discipline.advanceAge]
  split
  · split
    · exact ⟨.inl rfl, .inr rfl⟩
    · exact ⟨.inl rfl, .inl rfl⟩
  · exact ⟨.inl rfl, .inl rfl⟩

theorem State.labelCheck_drops {d : Discipline} (h : d.Drops s.disc) : d.Drops s.labelCheck.disc := by
  rw [State.labelCheck]
  split
  · exact h
  · split
    · exact ⟨.inr rfl, .inr rfl⟩
    · exact h

theorem State.takeRollover_drops (s : State) : s.disc.Drops s.takeRollover.disc := by
  rw [State.takeRollover]
  split
  · rw [State.reread_disc, State.rolloverEffects]
    dsimp only
    rw [State.raiseQuality_disc]
    exact State.labelCheck_drops (d := s.disc) (Discipline.advanceAge_drops s.disc)
  · exact ⟨.inl rfl, .inl rfl⟩

theorem State.clearSlewAtRollover_rolled (taken : s.rolled = .taken) : s.clearSlewAtRollover.rolled = .taken := by
  have forward : s.rolled.forward = .taken := by rw [taken]; rfl
  rw [State.clearSlewAtRollover]
  split
  · exact taken
  · next short =>
    change (if s.time.carries _ then s.rolled.forward else if s.time.borrows _ then _ else s.rolled) = _
    rw [forward, if_neg short, taken, ite_self]

theorem State.labelCheck_rolled (taken : s.rolled = .taken) : s.labelCheck.rolled = .taken := by
  rw [State.labelCheck]
  split
  · exact taken
  · split
    · exact State.clearSlewAtRollover_rolled taken
    · exact taken

theorem State.raiseQuality_rolled (q : Quality) (b : Bool) (s : State) : (s.raiseQuality q b).rolled = s.rolled := by
  rw [State.raiseQuality]
  split
  · rfl
  · split <;> rfl

theorem State.takeRollover_rolled (run : s.running = true) : s.takeRollover.rolled ≠ .waiting := by
  rw [State.takeRollover]
  split
  · have taken : ({ s with rolled := .taken } : State).rolloverEffects.rolled = .taken := by
      rw [State.rolloverEffects]
      dsimp only
      rw [State.raiseQuality_rolled]
      exact State.labelCheck_rolled rfl
    rw [State.reread_rolled, taken]
    decide
  · next idle =>
    rw [run, Bool.true_and, beq_iff_eq] at idle
    exact idle

theorem State.noPulse_other (h : s.disc.state ≠ .settling) : s.noPulse = s := by
  rw [State.noPulse]
  split
  · rfl
  · refine if_neg fun due => h ?_
    rw [Bool.and_eq_true, Bool.and_eq_true, beq_iff_eq] at due
    exact due.1.2

theorem State.missedWindow_other (h : s.disc.state ≠ .locked) (h' : s.disc.state ≠ .holdover) : s.missedWindow = s := by
  rw [State.missedWindow]
  split
  · split
    · split
      · next locked => exact absurd locked h
      · next holdover => exact absurd holdover h'
      all_goals rfl
    · rfl
  · rfl

theorem State.raiseQuality_silence (q : Quality) (b : Bool) (s : State) :
    (s.raiseQuality q b).disc.silence = s.disc.silence := by rw [State.raiseQuality_disc]

theorem State.raiseQuality_expected (q : Quality) (b : Bool) (s : State) :
    (s.raiseQuality q b).disc.expected = s.disc.expected := by rw [State.raiseQuality_disc]

theorem State.raiseQuality_state (q : Quality) (b : Bool) (s : State) :
    (s.raiseQuality q b).disc.state = s.disc.state := by rw [State.raiseQuality_disc]

/-- A fault in SETTLING keeps the silence deadline, or enters FREERUN without it (02 R36). -/
theorem State.settlingFault_silence (kind : ReferenceKind) (pulse : Option (Int × Stamp)) (s : State) :
    ((s.settlingFault kind pulse).disc.silence = s.disc.silence ∨ (s.settlingFault kind pulse).disc.silence = none)
    ∧ ((s.settlingFault kind pulse).disc.state = s.disc.state ∨ (s.settlingFault kind pulse).disc.state = .freerun) := by
  unfold State.settlingFault
  dsimp only
  rw [State.raiseQuality_silence, State.raiseQuality_state, State.notifyAll_disc, State.updDisc_disc, State.applyTerms_disc]
  dsimp only
  split
  · exact ⟨.inl rfl, .inl rfl⟩
  · exact ⟨.inr rfl, .inr rfl⟩

theorem State.lockedFault_expected (kind : ReferenceKind) (pulse : Option (Int × Stamp)) (s : State) :
    (s.lockedFault kind pulse).disc.expected = s.disc.expected := by
  unfold State.lockedFault
  dsimp only
  rw [State.raiseQuality_expected, State.notifyAll_disc, State.updDisc_disc, State.applyTerms_disc]
  dsimp only
  split <;> rfl

theorem State.holdoverFault_expected (kind : ReferenceKind) (pulse : Option (Int × Stamp)) (s : State) :
    (s.holdoverFault kind pulse).disc.expected = s.disc.expected := rfl

/-- A silence deadline that is reached in SETTLING does not stand (02 R36). -/
theorem State.noPulse_taken {d : Deadline} (run : s.running = true) (state : s.disc.state = .settling)
    (silence : s.disc.silence = some d) (due : d.reached s.reading = true) :
    s.noPulse.disc.silence ≠ some d ∧ s.noPulse.missedWindow = s.noPulse := by
  obtain ⟨t, ht⟩ : ∃ t, t = s.updDisc fun x => { x with silence := some { d with sec := d.sec + 2 } } := ⟨_, rfl⟩
  have later : t.disc.silence = some { d with sec := d.sec + 2 } := by rw [ht]; rfl
  have settling : t.disc.state = .settling := by rw [ht]; exact state
  obtain ⟨deadline, quality⟩ := t.settlingFault_silence .noPulse none
  rw [later] at deadline
  rw [settling] at quality
  rw [State.noPulse_due run silence state due, ← ht, State.reread_disc]
  constructor
  · obtain again | gone := deadline
    · rw [again]
      intro same
      have sec := congrArg Deadline.sec (Option.some.inj same)
      exact absurd sec (Nat.ne_of_gt (Nat.lt_add_of_pos_right (by decide)))
    · rw [gone]
      exact nofun
  · refine State.missedWindow_other ?_ ?_ <;> rw [State.reread_disc] <;> obtain state | state := quality <;> rw [state] <;> decide

/-- An expected second whose window has closed does not stand (02 R39). -/
theorem State.missedWindow_taken {w : RefWindow} {x : ExpectedSecond} (run : s.running = true)
    (state : s.disc.state = .locked ∨ s.disc.state = .holdover) (window : s.disc.window = some w)
    (expected : s.disc.expected = some x) (due : w.closeAt.reached s.reading = true) :
    s.missedWindow.disc.expected ≠ some x := by
  have next (e : BitVec 8) : some ({ sec := x.sec + 1, epoch := e } : ExpectedSecond) ≠ some x := fun same =>
    absurd (congrArg ExpectedSecond.sec (Option.some.inj same)) (Nat.succ_ne_self _)
  obtain locked | holdover := state
  · rw [State.missedWindow_locked run window expected due locked, State.reread_disc, State.lockedFault_expected]
    exact next _
  · rw [State.missedWindow_holdover run window expected due holdover, State.reread_disc, State.holdoverFault_expected]
    exact next _

theorem Discipline.Drops.silence {d e : Discipline} {x : Deadline} (h : d.Drops e) (gone : d.silence ≠ some x) :
    e.silence ≠ some x := by
  obtain ⟨same | none, -⟩ := h
  · rw [same]
    exact gone
  · rw [none]
    exact nofun

theorem Discipline.Drops.expected {d e : Discipline} {x : ExpectedSecond} (h : d.Drops e) (gone : d.expected ≠ some x) :
    e.expected ≠ some x := by
  obtain ⟨-, same | none⟩ := h
  · rw [same]
    exact gone
  · rw [none]
    exact nofun

theorem Works.afterCounter (s : State) : ∃ K : List Bank, Works K s.closeCounter s.closeTick ∧ Bank.clock ∉ K := by
  obtain ⟨u, hu⟩ : ∃ u, u = s.closeCounter := ⟨_, rfl⟩
  refine ⟨[.marker, .pending, .port, .markerOut, .line] ++ (releaseBanks ++ assertBanks) ++ outputBanks, ?_, by simp⟩
  rw [State.closeTick_eq, State.closeInputs_eq, ← hu]
  exact (((closeTimers u).mono (by simp)).trans ((dueRstn _).mono (by simp))).trans ((closeOutputs _).mono (by simp))

theorem State.RunsAt.closeEdges (run : s.RunsAt n) : s.closeEdges.RunsAt n :=
  (Works.takeRollover s).runsAt run |> (Works.sweep Works.dueEdges allInputs _).runsAt
    |> (Works.sweep Works.dueCaptures allInputs _).runsAt |> (Works.sweep Works.dueSample allInputs _).runsAt

/-- The rollovers and deadlines of a tick that is closed. -/
theorem State.closeTick_disc (run : s.RunsAt n) :
    s.closeTick.rolled ≠ .waiting
    ∧ (s.rolled ≠ .waiting → (s.interp .ref).Empty →
      (∀ d, s.disc.state = .settling → s.disc.silence = some d → d.reached s.reading = true → s.closeTick.disc.silence ≠ some d)
      ∧ (∀ w x, s.disc.state = .locked ∨ s.disc.state = .holdover → s.disc.window = some w →
        s.disc.expected = some x → w.closeAt.reached s.reading = true → s.closeTick.disc.expected ≠ some x)) := by
  obtain ⟨K, after, noClock⟩ := Works.afterCounter s
  obtain ⟨-, rolled, disc⟩ := after.clock_kept noClock
  obtain ⟨c, hc⟩ : ∃ c, c = s.closeEdges := ⟨_, rfl⟩
  obtain ⟨m, hm⟩ : ∃ m, m = c.noPulse.missedWindow := ⟨_, rfl⟩
  obtain ⟨-, rolledCal, discCal⟩ := (Works.calibrationExpiry m.takeRollover).clock_kept (by simp)
  have counter : s.closeCounter = m.takeRollover.calibrationExpiry := by rw [State.closeCounter, ← hc, ← hm]
  rw [counter] at rolled disc
  rw [rolled, disc, rolledCal, discCal]
  have drops := m.takeRollover_drops
  have runC : c.RunsAt n := hc ▸ run.closeEdges
  have runM : m.RunsAt n := hm ▸ (Works.missedWindow _).runsAt ((Works.noPulse c).runsAt runC)
  refine ⟨State.takeRollover_rolled runM.1, fun idle empty => ?_⟩
  have same := hc ▸ State.closeEdges_sameClock run idle empty
  have reading := same.reading
  obtain ⟨-, -, disc, -⟩ := same
  rw [← disc, ← reading]
  refine ⟨fun d state silence due => drops.silence ?_, fun w x state window expected due => drops.expected ?_⟩
  · obtain ⟨gone, stays⟩ := State.noPulse_taken runC.1 state silence due
    rw [hm, stays]
    exact gone
  · have stays : c.noPulse = c := State.noPulse_other (by obtain state | state := state <;> rw [state] <;> decide)
    rw [hm, stays]
    exact State.missedWindow_taken runC.1 state window expected due

end

end Sys2Proof.Machine

/-! PROOF. The core tick (01 R4, R5). -/

namespace Sys2Proof.Machine

theorem State.advanceTick_counts (u : State) : u.advanceTick = { u.nextTick with
    time := u.time.addTick, rolled := u.rolled.next u.time.rolls } := by
  rw [State.advanceTick]
  dsimp only [State.nextTick, State.count, State.mapInterps, State.mapMarkers]

/-- What the counter makes of a tick. -/
theorem State.advanceTick_value (u : State) {w : Nat} (hw : w = u.time.within + u.time.inc) :
    (w < Config.unitsPerSec → u.advanceTick = { u.nextTick with
        time := { u.time with ns := w / 2 ^ 32, frac := w % 2 ^ 32, excess := 0 }, rolled := .none })
    ∧ (Config.unitsPerSec ≤ w → 2 ^ 40 - 1 ≤ u.time.sec → u.advanceTick = { u.nextTick with
        time := { u.time with sec := 2 ^ 40 - 1, ns := 999999999, frac := 2 ^ 32 - 1
                              excess := w - (Config.unitsPerSec - 1) }
        rolled := .none })
    ∧ (Config.unitsPerSec ≤ w → u.time.sec < 2 ^ 40 - 1 → u.advanceTick = { u.nextTick with
        time := { u.time with sec := u.time.sec + 1, ns := (w - Config.unitsPerSec) / 2 ^ 32
                              frac := (w - Config.unitsPerSec) % 2 ^ 32, excess := 0 }
        rolled := if u.rolled = .early then .taken else .waiting }) := by
  subst hw
  rw [State.advanceTick_counts]
  refine ⟨fun below => ?_, fun past last => ?_, fun past early => ?_⟩
  · obtain ⟨add, rolls⟩ := u.time.addTick_below below
    rw [add, rolls, Rollover.next_no]
    rfl
  · obtain ⟨add, rolls⟩ := u.time.addTick_max past last
    rw [add, rolls, Rollover.next_no]
    rfl
  · obtain ⟨add, rolls⟩ := u.time.addTick_roll past early
    rw [add, rolls, Rollover.next_yes]
    rfl

/-- What stands neither in the timers nor on the lines and marker inputs of a tick that is closed. -/
theorem State.closeTick_timers {s : State} {n : Nat} (run : s.RunsAt n) :
    (∀ m ∈ s.closeTick.calExpiry, n < m) ∧ (∀ m ∈ s.closeTick.rstnReleaseAt, n < m)
    ∧ (∀ l : Fin 8, s.closeTick.arrivals[l] = [] ∧ s.closeTick.lines[l].Closed n)
    ∧ (∀ m : Fin 4, s.closeTick.markers[m].Closed n)
    ∧ s.closeTick.pool.fromEngine = [] ∧ s.closeTick.pool.fromMarkers = []
    ∧ (∀ p : Fin 3, s.closeTick.ports[p].Punctual n)
    ∧ (s.Sorted → ∀ q ∈ s.closeTick.channels, q.2.Waits s.closeTick.reading)
    ∧ (s.closeTick.secp = true → s.closeTick.secpRise < n → s.closeTick.time.ns < s.closeTick.disc.settings.secpNs) := by
  have inputs := Works.closeInputs s
  obtain ⟨a, ha⟩ : ∃ a, a = s.closeEdges.noPulse.missedWindow.takeRollover := ⟨_, rfl⟩
  obtain ⟨b, hb⟩ : ∃ b, b = a.calibrationExpiry := ⟨_, rfl⟩
  obtain ⟨c, hc⟩ : ∃ c, c = b.closeTimers := ⟨_, rfl⟩
  obtain ⟨d, hd⟩ : ∃ d, d = c.dueRstn := ⟨_, rfl⟩
  have runA : a.RunsAt n :=
    ha ▸ (Works.takeRollover _).runsAt ((Works.missedWindow _).runsAt ((Works.noPulse _).runsAt run.closeEdges))
  have runB : b.RunsAt n := hb ▸ (Works.calibrationExpiry a).runsAt runA
  have timers : Works _ b c := hc ▸ Works.closeTimers b
  have runC := timers.runsAt runB
  have rstn : Works _ c d := hd ▸ Works.dueRstn c
  have runD := rstn.runsAt runC
  have outputs := Works.closeOutputs d
  have form : s.closeTick = d.closeOutputs := by rw [hd, hc, hb, ha]; rfl
  obtain ⟨lines, engine, markers, ports, gaps, secp⟩ := State.closeOutputs_spec runD
  obtain ⟨candidates, quiet⟩ := State.closeTimers_closed runB
  rw [← hc] at candidates quiet
  rw [form]
  refine ⟨?_, ?_, fun l => ⟨(lines l).1, (lines l).2 ?_⟩, fun m => ?_, engine, markers, ports, fun sorted => gaps ?_, secp⟩
  · rw [outputs.cal_kept (by simp), rstn.cal_kept (by simp), timers.cal_kept (by simp), hb]
    exact State.calibrationExpiry_timer runA
  · rw [(outputs.rstn_kept (by simp)).2, hd]
    exact State.dueRstn_latch runC
  · rw [hd]
    exact State.dueRstn_line l (quiet l)
  · rw [outputs.markers_kept (by simp), hd]
    exact State.dueRstn_marker m (candidates m)
  · have table : c.channels = s.channels := by
      have whole : c = s.closeInputs := by rw [hc, hb, ha]; rfl
      rw [whole, (inputs.table_kept (by simp)).1]
    rw [hd]
    exact State.Sorted.dueRstn (sorted.congr table)

/-- Settles O21: the counter by `State.advanceTick_value`, what is not owed by `State.closeTick_closed`,
`State.closeTick_timers` and `State.closeTick_disc`. -/
theorem coreTickAddsTheIncrement : Obligations.CoreTickAddsTheIncrement := by
  intro s u w run hu hw
  have runs : exec .coreTick s = .next u.advanceTick := congrArg Host.Outcome.next ((if_pos run).trans (by rw [hu]))
  have works : Works _ s u := hu ▸ Works.closeTick s
  obtain ⟨below, last, early⟩ := u.advanceTick_value hw
  obtain ⟨pending, tick, -, -, mon⟩ := works.fixed
  obtain ⟨cal, rstn, lines, markers, engine, records, ports, gaps, secp⟩ := State.closeTick_timers ⟨run, rfl⟩
  obtain ⟨rolled, deadlines⟩ := State.closeTick_disc (s := s) ⟨run, rfl⟩
  have inputs := State.closeTick_closed (s := s) ⟨run, rfl⟩
  rw [← hu] at cal rstn lines markers engine records ports gaps secp rolled deadlines
  simp only [← hu] at inputs
  refine ⟨fun h => runs.trans (congrArg _ (below h)), fun h h' => runs.trans (congrArg _ (last h h')),
    fun h h' => runs.trans (congrArg _ (early h h')), tick, pending, ?_, by rw [mon], rolled, by rw [tick]; exact secp,
    fun i => ?_, cal, rstn, lines, markers, engine, records, fun p => ?_, gaps, fun idle conv coarse => deadlines idle ⟨conv, coarse⟩,
    fun r held early => ?_⟩
  · rw [works.phase]
    exact (State.running_iff s).1 run
  · obtain ⟨⟨conv, coarse⟩, sample, empty⟩ := inputs i
    exact ⟨conv, sample, coarse, fun other two room => empty other ⟨two, room⟩⟩
  · obtain ⟨beats, holds, hears⟩ := ports p
    exact ⟨beats, holds, hears⟩
  · refine congrArg Host.Outcome.next ((if_neg (by rw [held]; decide)).trans (if_neg (by rw [early]; decide)))

end Sys2Proof.Machine
